-- ==== Sys2Proof/Word.lean ====
section
/-! DEFINITION. The word types of the core: host registers, bytes, window offsets (spec R9, R11, R83). -/

namespace Sys2Proof

/-- The value of a host register: 32 bits, unsigned, bit 31 the most significant (R9). -/
abbrev Word := BitVec 32

/-- A byte in `[0, 255]` (R11). -/
abbrev Byte := BitVec 8

/-- A byte offset as a host operation carries it: 12 bits (R83). -/
abbrev Offset := BitVec 12

end Sys2Proof
end

