-- ==== Sys2Proof/Machine/Leaf.lean ====
section
/-! DEFINITION. The leaf units of spec/41_leaf_units.md: bit and byte conversion, permutation, rotation, the GF(2^8)
multiplier and the S-box lookups. Pure functions, no state. -/

namespace Sys2Proof.Machine

/-- An ordered bit sequence `b[0..n-1]`; the head is `b[0]`, the first bit (R10). -/
abbrev Bits := List Bool

/-- An AES word `(w0, w1, w2, w3)` (R11). -/
abbrev AesWord := Vector Byte 4

/-- `bitseq_n(v)`: entry `i` is `v[n-1-i]`, the most significant bit first (R120). -/
def bitseq {n : Nat} (v : BitVec n) : Bits := (List.range n).map fun i => v.getLsbD (n - 1 - i)

/-- `val(b)`: the number whose most significant bit is `b[0]`, by Horner's scheme (R121). -/
def val (b : Bits) : Nat := b.foldl (fun acc bit => 2 * acc + bit.toNat) 0

/-- `permute(b, T)`: output `i` is `b[T[i] - 1]`, the table's entries being 1-based (R122). -/
def permute (b : Bits) (table : List Nat) : Bits := table.map fun t => b.getD (t - 1) false

/-- `rotl(b, s)` for `s < n`: elements move toward index 0 (R123). -/
def rotl {α : Type} (b : List α) (s : Nat) : List α := b.drop s ++ b.take s

/-- `a XOR b` of two sequences of equal length (R124). -/
def xorBits (a b : Bits) : Bits := List.zipWith xor a b

/-- The sub-sequence of `len` elements from index `start` on. -/
def slice (b : Bits) (start len : Nat) : Bits := (b.drop start).take len

/-- `bytes(v)`: the four bytes of a register, the most significant first (R130). -/
def bytes (v : Word) : AesWord :=
  #v[v.extractLsb' 24 8, v.extractLsb' 16 8, v.extractLsb' 8 8, v.extractLsb' 0 8]

/-- `pack(w)`: `w0` in bits 31:24 down to `w3` in bits 7:0 (R11, R130). -/
def pack (w : AesWord) : Word := (w[0] ++ w[1] ++ w[2] ++ w[3]).setWidth 32

/-- Byte-wise XOR of two words (R11, R124). -/
def xorWord (a b : AesWord) : AesWord := Vector.zipWith (· ^^^ ·) a b

/-- `k` more turns of the loop of `gf_mul`, from accumulator `p` and the running operands `m` and `n` (R125). -/
def gfLoop : Nat → Byte → Byte → Byte → Byte
  | 0, p, _, _ => p
  | k + 1, p, m, n =>
    gfLoop k (if n.getLsbD 0 then p ^^^ m else p)
      (if m.getLsbD 7 then (m <<< 1) ^^^ Tables.reduction else m <<< 1) (n >>> 1)

/-- `gf_mul(m, n)`: the GF(2^8) product, always eight turns (R125). -/
def gfMul (m n : Byte) : Byte := gfLoop 8 0 m n

/-- `S_AES(b)`: entry `b` of the AES S-box, indexed flat (R127). -/
def sAes (b : Byte) : Byte := Tables.sbox.getD b.toNat 0

/-- The 0..15 entry of DES S-box `k`, `k = 1..8`, at a row and a column (R128). -/
def sDesEntry (k row col : Nat) : Nat := ((Tables.desBoxes.getD (k - 1) []).getD row []).getD col 0

/-- `S_DES(k, g)`: row from the group's first and last bit, column from the four between (R128). -/
def sDes (k : Nat) (g : Bits) : Bits :=
  let row := val [g.getD 0 false, g.getD 5 false]
  let col := val [g.getD 1 false, g.getD 2 false, g.getD 3 false, g.getD 4 false]
  bitseq (BitVec.ofNat 4 (sDesEntry k row col))

/-- `sbox_layer(x)`: eight groups of six bits, group `i` through box `i + 1`, the outputs joined in order (R129). -/
def sboxLayer (x : Bits) : Bits := (List.range 8).flatMap fun i => sDes (i + 1) (slice x (6 * i) 6)

end Sys2Proof.Machine
end

