-- ==== Sys2Proof/Machine/AesEngine.lean ====
section
/-! DEFINITION. The AES engine's functions, spec/43_aes_engine.md R171-R179: word operations, key expansion, the round
transformations and the cipher. -/

namespace Sys2Proof.Machine

/-- The 4×4 byte matrix `s[r][c]`, row by row (R12). -/
abbrev AesState := Vector (Vector Byte 4) 4

/-- The matrix with the given byte at each row and column. -/
def AesState.of (f : Fin 4 → Fin 4 → Byte) : AesState := .ofFn fun r => .ofFn fun c => f r c

/-- Column `c` of the state, the word `(s[0][c], s[1][c], s[2][c], s[3][c])` (R12). -/
def AesState.column (s : AesState) (c : Fin 4) : AesWord := .ofFn fun r => s[r][c]

/-- `RotWord(w)` (R171). -/
def rotWord (w : AesWord) : AesWord := #v[w[1], w[2], w[3], w[0]]

/-- `SubWord(w)` (R172). -/
def subWord (w : AesWord) : AesWord := #v[sAes w[0], sAes w[1], sAes w[2], sAes w[3]]

/-- The word whose byte 0 is `RCON[j]`, `j = 1..10`, and whose other bytes are 0 (R142, R173). -/
def rconWord (j : Nat) : AesWord := #v[Tables.rcon.getD (j - 1) 0, 0, 0, 0]

/-- What is XORed into schedule word `i`: R173's `temp` made from `w[i-1]`. -/
def scheduleTemp (nk i : Nat) (prev : AesWord) : AesWord :=
  if i % nk = 0 then xorWord (subWord (rotWord prev)) (rconWord (i / nk))
  else if 6 < nk ∧ i % nk = 4 then subWord prev
  else prev

/-- Entry `i` of a schedule; the zero word beyond its end. -/
def wordAt (w : List AesWord) (i : Nat) : AesWord := w.getD i (.replicate 4 0)

/-- The schedule `w` with `count` more words, each made from the ones before it (R173). -/
def extendSchedule (nk : Nat) : Nat → List AesWord → List AesWord
  | 0, w => w
  | count + 1, w =>
    extendSchedule nk count
      (w ++ [xorWord (wordAt w (w.length - nk)) (scheduleTemp nk w.length (wordAt w (w.length - 1)))])

/-- `KeyExpansion(key, nk, nr)`: words `0..nk-1` are the key, `4·(nr+1)` words in all (R173). -/
def keyExpansion (key : List AesWord) (nk nr : Nat) : List AesWord :=
  extendSchedule nk (4 * (nr + 1) - nk) key

/-- `SubBytes(s)` (R175). -/
def subBytes (s : AesState) : AesState := .of fun r c => sAes s[r][c]

/-- `ShiftRows(s)`: `s'[r][c] = s[r][(c + r) % 4]` (R176). -/
def shiftRows (s : AesState) : AesState := .of fun r c => s[r][c + r]

/-- Byte `r` of the MixColumns map of one column: the dot product of matrix row `r` with the column (R177). -/
def mixByte (a : AesWord) (r : Fin 4) : Byte :=
  let row := Tables.mixRow r
  gfMul row[0] a[0] ^^^ gfMul row[1] a[1] ^^^ gfMul row[2] a[2] ^^^ gfMul row[3] a[3]

/-- `MixColumn(a)`: the MixColumns map on one column (R177, R243). -/
def mixColumn (a : AesWord) : AesWord := .ofFn fun r => mixByte a r

/-- `MixColumns(s)`: every byte reads the old column (R177). -/
def mixColumns (s : AesState) : AesState := .of fun r c => mixByte (s.column c) r

/-- `AddRoundKey(s, w, round)`: column `c` is XORed with word `w[4·round + c]` (R178). -/
def addRoundKey (s : AesState) (w : List AesWord) (round : Nat) : AesState :=
  .of fun r c => s[r][c] ^^^ (wordAt w (4 * round + c))[r]

/-- One full round, step 2 of R179. -/
def fullRound (w : List AesWord) (s : AesState) (round : Nat) : AesState :=
  addRoundKey (mixColumns (shiftRows (subBytes s))) w round

/-- `Cipher(in, nr, w)` on the state matrix: round key 0, the full rounds `1..nr-1`, and the final round without
MixColumns (R179). -/
def cipher (s : AesState) (nr : Nat) (w : List AesWord) : AesState :=
  let rounds := (List.range' 1 (nr - 1)).foldl (fullRound w) (addRoundKey s w 0)
  addRoundKey (shiftRows (subBytes rounds)) w nr

end Sys2Proof.Machine
end

