-- ==== Sys2Proof/Machine/DesEngine.lean ====
section
/-! DEFINITION. The DES engine's functions, spec/44_des_engine.md R211-R214: the key schedule, the round function and
the encryption, on ordered bit sequences. -/

namespace Sys2Proof.Machine

/-- The subkeys of the rounds whose rotation amounts are listed, from the key halves `C` and `D` before them (R211). -/
def desSubkeys : List Nat → Bits → Bits → List Bits
  | [], _, _ => []
  | s :: rest, c, d => permute (rotl c s ++ rotl d s) Tables.pc2 :: desSubkeys rest (rotl c s) (rotl d s)

/-- `KeySchedule(k)`: the subkeys `K1..K16` of a 64-bit key; `Kn` is entry `n - 1` (R211). -/
def desKeySchedule (k : Bits) : List Bits :=
  let y := permute k Tables.pc1
  desSubkeys Tables.shifts (slice y 0 28) (slice y 28 28)

/-- `F(R, K)` (R213). -/
def desF (r k : Bits) : Bits := permute (sboxLayer (xorBits (permute r Tables.e) k)) Tables.p

/-- The Feistel rounds with the listed subkeys, from the halves `L` and `R`: each round reads the old `L` and `R`
(R214). -/
def desRounds : List Bits → Bits → Bits → Bits × Bits
  | [], l, r => (l, r)
  | k :: rest, l, r => desRounds rest r (xorBits l (desF r k))

/-- `Encrypt(m, K1..K16)`: IP, the rounds, the halves exchanged, and the inverse of IP (R214). -/
def desEncrypt (m : Bits) (subkeys : List Bits) : Bits :=
  let y := permute m Tables.ip
  let lr := desRounds subkeys (slice y 0 32) (slice y 32 32)
  permute (lr.2 ++ lr.1) Tables.ipinv

end Sys2Proof.Machine
end

