-- ==== Sys2Proof/Config.lean ====
section
/-! DEFINITION. What is fixed for one core and not changed by a step (spec R6): the constants the spec fixes,
the parameters it leaves OPEN, and the free value of a DOUT read while busy. An `opaque` has no body, so no proof can
see its value. -/

namespace Sys2Proof.Config

/-- `REG_W` in bytes: every host register is 32 bits wide (R6, R54). -/
def accessBytes : Nat := 4

/-- `WINDOW`: the register window is 0x100 bytes long (R6, R50). -/
def windowBytes : Nat := 0x100

/-- Which 256-byte slot of the host's address space holds the window: OPEN (R6, R61). -/
opaque baseSlot : Nat

/-- `BASE`: the host address of the window, any multiple of 256 (R6, R61). No rule of the core depends on it. -/
def base : Nat := windowBytes * baseSlot

/-- The two byte-lane orders a host bus may have (R60). -/
inductive LaneOrder where
  | littleEndian
  | bigEndian
deriving DecidableEq, Repr, Inhabited

/-- `BUS_ENDIAN`: OPEN (R6, R60). Only whole 32-bit accesses are admitted, so nothing in the model reads it. -/
opaque busEndian : LaneOrder

/-- `LATENCY(op, ksize)`: steps from acceptance to completion; OPEN, finite, independent of data (R6, R107, R311). R6
calls them engine steps and R107 host steps; the model counts host steps (DESIGN CHOICE, log entry 13). The step leaves completion to the schedule in `State.events`, so no step reads it; `Script.runTimed` is the
schedule this parameter describes. -/
opaque latency (op : BitVec 4) (ksize : BitVec 2) : Nat

/-- `any32`, the free value of one DOUT read while BUSY = 1 (R13, R27, U1): the n-th draw. DESIGN CHOICE, log
entry 3. -/
opaque any32 (draw : Nat) : Word

end Sys2Proof.Config
end

