-- ==== Sys2Proof/Syntax.lean ====
section
/-! DEFINITION. The commands of the core: one constructor for each row of spec/opcode_table.json (spec R72). -/

namespace Sys2Proof

/-- The commands a host can write to CTRL (R72). A command's only immediates are KSIZE and TSEL (R76, R84); both stay
the unsigned fields of the command word, since two commands are well-formed and rejected by value (R79). -/
inductive Instr where
  /-- NOP, opcode 0x0 (R109). -/
  | nop
  /-- AES_KEYEXP, opcode 0x1, with the field KSIZE (R181). -/
  | aesKeyexp (ksize : BitVec 2)
  /-- AES_ENC, opcode 0x2 (R182). -/
  | aesEnc
  /-- DES_KEYSCHED, opcode 0x3 (R216). -/
  | desKeysched
  /-- DES_ENC, opcode 0x4 (R217). -/
  | desEnc
  /-- GF_MUL, opcode 0x5 (R241). -/
  | gfMul
  /-- AES_SUBWORD, opcode 0x6 (R242). -/
  | aesSubword
  /-- DES_PERM, opcode 0x7, with the field TSEL (R244). -/
  | desPerm (tsel : BitVec 3)
  /-- DES_SBOX, opcode 0x8 (R245). -/
  | desSbox
  /-- AES_MIXCOL, opcode 0x9 (R243). -/
  | aesMixcol
  /-- DES_F, opcode 0xA (R246). -/
  | desF
deriving DecidableEq, Repr, Inhabited

end Sys2Proof
end

