-- ==== Sys2Proof/WellFormed.lean ====
section
/-! DEFINITION. The check on a command's field values. Every `Instr` is spelled by a word that is well-formed in the
sense of spec R75; this check is the one R79 adds: the field names a key size (R73) or a table (R74) that exists. A
command that fails it has a meaning too: it is rejected by value (R101). -/

namespace Sys2Proof

/-- The command's KSIZE names an AES variant and its TSEL names a DES table (R73, R74, R79). -/
def Instr.wf : Instr → Bool
  | .aesKeyexp ksize => ksize != 3
  | .desPerm tsel => decide (tsel < 6)
  | .nop => true
  | .aesEnc => true
  | .desKeysched => true
  | .desEnc => true
  | .gfMul => true
  | .aesSubword => true
  | .desSbox => true
  | .aesMixcol => true
  | .desF => true

end Sys2Proof
end

