-- ==== Sys2Proof/Decode.lean ====
section
/-! DEFINITION. Command words to commands and back (spec R70-R84): the fields, the well-formedness of a word, the
decoder, the encoder, and the opcode table as rows of mask and match. -/

namespace Sys2Proof

/-- OP, bits 3:0 of a command word (R71). -/
def opField (v : Word) : BitVec 4 := v.extractLsb' 0 4

/-- KSIZE, bits 5:4 of a command word (R71, R84). -/
def ksizeField (v : Word) : BitVec 2 := v.extractLsb' 4 2

/-- TSEL, bits 10:8 of a command word (R71, R84). -/
def tselField (v : Word) : BitVec 3 := v.extractLsb' 8 3

/-- `FIELDS(op)` of R75: the bits an opcode uses beside OP. -/
def fieldsMask (op : BitVec 4) : Word :=
  if op = 0x1 then 0x030 else if op = 0x7 then 0x700 else 0

/-- The bits of `v` outside OP and its opcode's own fields (R75); a well-formed word has none of them set. -/
def reservedPart (v : Word) : Word := v &&& ~~~(0x0000000F ||| fieldsMask (opField v))

/-- `wellformed(v)` of R75. -/
def wellformed (v : Word) : Bool := decide (opField v ≤ 0xA) && reservedPart v == 0

/-- Why a word is no command; both reasons are rejected with ILLEGAL_CMD (R77, R78). -/
inductive DecodeError where
  /-- OP is 0xB to 0xF (R77). -/
  | reservedOpcode
  /-- A reserved bit, or a field the opcode does not use, is not 0 (R78). -/
  | reservedBits
deriving DecidableEq, Repr

/-- The command a word spells, or the reason it spells none: total on all 2^32 words (R72, R75, R77, R78). -/
def decode (v : Word) : Except DecodeError Instr :=
  if 0xA < opField v then .error .reservedOpcode
  else if reservedPart v ≠ 0 then .error .reservedBits
  else
    match (opField v).toNat with
    | 0x0 => .ok .nop
    | 0x1 => .ok (.aesKeyexp (ksizeField v))
    | 0x2 => .ok .aesEnc
    | 0x3 => .ok .desKeysched
    | 0x4 => .ok .desEnc
    | 0x5 => .ok .gfMul
    | 0x6 => .ok .aesSubword
    | 0x7 => .ok (.desPerm (tselField v))
    | 0x8 => .ok .desSbox
    | 0x9 => .ok .aesMixcol
    | 0xA => .ok .desF
    | _ => .error .reservedOpcode

/-- A command's opcode (R72). -/
def Instr.op : Instr → BitVec 4
  | .nop => 0x0
  | .aesKeyexp _ => 0x1
  | .aesEnc => 0x2
  | .desKeysched => 0x3
  | .desEnc => 0x4
  | .gfMul => 0x5
  | .aesSubword => 0x6
  | .desPerm _ => 0x7
  | .desSbox => 0x8
  | .aesMixcol => 0x9
  | .desF => 0xA

/-- A command's KSIZE field: 0 for every command that does not use it (R71). -/
def Instr.ksize : Instr → BitVec 2
  | .aesKeyexp k => k
  | .nop => 0
  | .aesEnc => 0
  | .desKeysched => 0
  | .desEnc => 0
  | .gfMul => 0
  | .aesSubword => 0
  | .desPerm _ => 0
  | .desSbox => 0
  | .aesMixcol => 0
  | .desF => 0

/-- A command's TSEL field: 0 for every command that does not use it (R71). -/
def Instr.tsel : Instr → BitVec 3
  | .desPerm t => t
  | .nop => 0
  | .aesKeyexp _ => 0
  | .aesEnc => 0
  | .desKeysched => 0
  | .desEnc => 0
  | .gfMul => 0
  | .aesSubword => 0
  | .desSbox => 0
  | .aesMixcol => 0
  | .desF => 0

/-- The command word with the given fields and every reserved bit 0 (R71, R82). -/
def commandWord (op : BitVec 4) (ksize : BitVec 2) (tsel : BitVec 3) : Word :=
  op.setWidth 32 ||| (ksize.setWidth 32 <<< 4) ||| (tsel.setWidth 32 <<< 8)

/-- The word the host writes to CTRL for a command (R82). -/
def encode (i : Instr) : Word := commandWord i.op i.ksize i.tsel

/-- A row of spec/opcode_table.json: the words `v` with `v AND mask = pattern`. -/
structure TableRow where
  mnemonic : String
  mask : Word
  pattern : Word
deriving DecidableEq, Repr

/-- The word is one of the row's. -/
def TableRow.matches (r : TableRow) (v : Word) : Bool := v &&& r.mask == r.pattern

/-- spec/opcode_table.json, row by row. -/
def opcodeTable : List TableRow :=
  [⟨"NOP", 0xFFFFFFFF, 0x00000000⟩,
   ⟨"AES_KEYEXP", 0xFFFFFFCF, 0x00000001⟩,
   ⟨"AES_ENC", 0xFFFFFFFF, 0x00000002⟩,
   ⟨"DES_KEYSCHED", 0xFFFFFFFF, 0x00000003⟩,
   ⟨"DES_ENC", 0xFFFFFFFF, 0x00000004⟩,
   ⟨"GF_MUL", 0xFFFFFFFF, 0x00000005⟩,
   ⟨"AES_SUBWORD", 0xFFFFFFFF, 0x00000006⟩,
   ⟨"DES_PERM", 0xFFFFF8FF, 0x00000007⟩,
   ⟨"DES_SBOX", 0xFFFFFFFF, 0x00000008⟩,
   ⟨"AES_MIXCOL", 0xFFFFFFFF, 0x00000009⟩,
   ⟨"DES_F", 0xFFFFFFFF, 0x0000000A⟩]

/-- A table row's number as the 32-bit value written to CTRL. The core has no byte order for it: a command is one
32-bit write (R60, R70, R80). -/
def tableWord (nbits w : Nat) : Word := BitVec.ofNat 32 (w % 2 ^ nbits)

/-- The command the decoder reads from a word numbered as the opcode table numbers it; no command is longer than one
32-bit word (R80). -/
def decodeTableWord (nbits w : Nat) : Option Instr :=
  if nbits ≤ 32 then (decode (tableWord nbits w)).toOption else none

end Sys2Proof
end

