-- ==== Sys2Proof/Machine/State.lean ====
section
/-! DEFINITION. The state of the core (spec R20) and what the model holds beside it: the host's and the engine's turns
still to come, the value the last read returned, and the count of draws. Plain data throughout. -/

namespace Sys2Proof.Machine

/-- `Pending{op, ksize, tsel, key[0..7], din[0..3]}`: an accepted command with its snapshot of KEY and DIN (R36). -/
structure Pending where
  op : BitVec 4
  ksize : BitVec 2
  tsel : BitVec 3
  key : Vector Word 8
  din : Vector Word 4
deriving DecidableEq, Repr

/-- The state of the core, field for field the record of R20. `sk[n]` of R35, `n = 1..16`, is entry `n - 1` of `sk`; an
entry of `rk` or `sk` that is `none` is the spec's `NoValue`. -/
structure Arch where
  /-- KEY0..KEY7 (R23). -/
  key : Vector Word 8
  /-- DIN0..DIN3 (R24). -/
  din : Vector Word 4
  /-- DOUT0..DOUT3 (R27). -/
  dout : Vector Word 4
  /-- STATUS.BUSY (R29). -/
  busy : Bool
  /-- STATUS.DONE (R30). -/
  done : Bool
  /-- STATUS.ERR (R31). -/
  err : Bool
  /-- STATUS.ERRCODE (R31, R271). -/
  errcode : BitVec 4
  /-- STATUS.AES_KV (R32). -/
  aes_kv : Bool
  /-- STATUS.AES_KSIZE (R32). -/
  aes_ks : BitVec 2
  /-- STATUS.DES_KV (R32). -/
  des_kv : Bool
  /-- The AES schedule store RK (R34). -/
  rk : Vector (Option Word) 60
  /-- The DES subkey store SK (R35). -/
  sk : Vector (Option (BitVec 48)) 16
  /-- The pending-command record (R36). -/
  pend : Option Pending
deriving DecidableEq, Repr

/-- One turn of one agent (R7, R8). Reads and writes carry the window offset of R83 and the access size in bytes. -/
inductive Event where
  /-- The host reads `size` bytes at offset `off`. -/
  | read (off : Offset) (size : Nat)
  /-- The host writes `data` as `size` bytes at offset `off`. -/
  | write (off : Offset) (size : Nat) (data : Word)
  /-- The platform asserts reset (R300). -/
  | reset
  /-- The engine has its turn: the completion step if a command is pending, else nothing (R104). -/
  | engine
deriving DecidableEq, Repr

/-- The whole state of the model: the core's record, and the model's own fields. `events` is the interleaving of the
host's accesses, resets and the engine's turns still to come, oldest first: quantifying over it quantifies over every
interleaving (R8, R63). DESIGN CHOICE, log entries 2 and 3. -/
structure State extends Arch where
  /-- The turns still to come (the model's own). -/
  events : List Event
  /-- The value the last read returned to the host; `none` before any read (the model's own). -/
  rdata : Option Word
  /-- How many draws `any32` has given (the model's own). -/
  draws : Nat
deriving DecidableEq, Repr

/-- The register window by name (R51). -/
inductive Reg where
  | ctrl
  | status
  | key (i : Fin 8)
  | din (i : Fin 4)
  | dout (i : Fin 4)
  /-- A reserved offset: reads 0, ignores writes (R51). -/
  | reserved
deriving DecidableEq, Repr

/-- The causes of a rejection (R271). -/
inductive ErrCode where
  | illegalCmd
  | invalidKeySize
  | noAesSchedule
  | noDesSchedule
  | busy
  | invalidTable
deriving DecidableEq, Repr

/-- What stops the model (R280): the two faults the spec names, both of the MODEL, not of the hardware. A fault is
sticky, since a run ends at the first one. -/
inductive Fault where
  /-- Raised by a host read or write that is not 32 bits wide at a multiple of 4 inside the window (R54, R280). Safe:
  the spec defines no effect, and the model stops. -/
  | unsupportedAccess (off : Offset) (size : Nat)
  /-- Raised by AES_ENC or DES_ENC on a schedule entry that is `NoValue` (R41, R280). Safe: no accepted command
  reaches one. -/
  | unwrittenStore (index : Nat)
deriving DecidableEq, Repr

/-- What the model gives no meaning to. -/
inductive Refusal where
  /-- Raised by the dispatch for an instruction that has no meaning yet; no arm raises it. Safe. -/
  | notModelled (mnemonic : String)
  /-- Raised by the engine's turn on a pending record that acceptance (R101, R103) never makes: no opcode of R104's
  case, KSIZE = 3 or TSEL ≥ 6. DESIGN CHOICE, log entry 5. Safe: no run from reset reaches it. -/
  | pendingNeverAccepted
deriving DecidableEq, Repr

/-- The outcome of a step of this machine. -/
abbrev Result := Host.Outcome State Fault Refusal

/-- The core after reset: R41's table, value for value. -/
def Arch.reset : Arch where
  key := .replicate 8 0
  din := .replicate 4 0
  dout := .replicate 4 0
  busy := false
  done := false
  err := false
  errcode := 0
  aes_kv := false
  aes_ks := 0
  des_kv := false
  rk := .replicate 60 none
  sk := .replicate 16 none
  pend := none

/-- The machine right after reset (R300): the core as R41 says, nothing scheduled, nothing read, no draw made. -/
def State.reset : State where
  toArch := Arch.reset
  events := []
  rdata := none
  draws := 0

end Sys2Proof.Machine
end

