-- ==== Sys2Proof/Machine/Flags.lean ====
section
/-! DEFINITION. The flags of the core, spec/10_state.md section 4: STATUS as a word, the error codes, and every way a
flag changes. There are no condition codes (R28). -/

namespace Sys2Proof.Machine

/-- ERRCODE of a rejection (R271). -/
def ErrCode.code : ErrCode → BitVec 4
  | .illegalCmd => 1
  | .invalidKeySize => 2
  | .noAesSchedule => 3
  | .noDesSchedule => 4
  | .busy => 5
  | .invalidTable => 6

/-- STATUS as the host reads it: `zext_32(des_kv ‖ aes_ks ‖ aes_kv ‖ errcode ‖ 0 ‖ err ‖ done ‖ busy)` (R25, R52). -/
def statusWord (a : Arch) : Word :=
  (BitVec.ofBool a.des_kv ++ a.aes_ks ++ BitVec.ofBool a.aes_kv ++ a.errcode ++ 0#1 ++ BitVec.ofBool a.err ++
    BitVec.ofBool a.done ++ BitVec.ofBool a.busy).setWidth 32

/-- ERR and ERRCODE cleared together: a write of STATUS with bit 2 set (R31, R276). -/
def clearErr (s : State) : State := { s with err := false, errcode := 0 }

/-- The flags at acceptance: BUSY set, DONE, ERR and ERRCODE cleared (R103). -/
def flagsAccept (s : State) : State := { s with busy := true, done := false, err := false, errcode := 0 }

/-- The flags at a rejection: ERR set, ERRCODE the code, DONE cleared unless the code is BUSY (R30, R31, R272). -/
def flagsReject (code : ErrCode) (s : State) : State :=
  { s with err := true, errcode := code.code, done := if code = .busy then s.done else false }

/-- The flags at completion: BUSY cleared, DONE set, ERR and ERRCODE kept (R104). -/
def flagsComplete (s : State) : State := { s with busy := false, done := true }

end Sys2Proof.Machine
end

