-- ==== Sys2Proof/Machine/Ops.lean ====
section
/-! DEFINITION. The named operations over the state: the register window (spec R50-R54), rejection, acceptance and
completion (R101-R104, R272), and reset (R300). The core has no memory of its own (R50, R114) and no trap: a rejection is
its whole exception entry, and nothing returns from one (R270, R278, R279). -/

namespace Sys2Proof.Machine

/-- The register at a window offset that is a multiple of 4 (R51). -/
def Reg.at (off : Offset) : Reg :=
  let o := off.toNat
  if o = 0x000 then .ctrl
  else if o = 0x004 then .status
  else if h : 0x010 ≤ o ∧ o < 0x030 then .key ⟨(o - 0x010) / 4, by omega⟩
  else if h : 0x030 ≤ o ∧ o < 0x040 then .din ⟨(o - 0x030) / 4, by omega⟩
  else if h : 0x040 ≤ o ∧ o < 0x050 then .dout ⟨(o - 0x040) / 4, by omega⟩
  else .reserved

/-- The window offset of a named register (R51); for the reserved slots, the first of them, 0x008. -/
def Reg.offset : Reg → Offset
  | .ctrl => 0x000
  | .status => 0x004
  | .key i => BitVec.ofNat 12 (0x010 + 4 * i)
  | .din i => BitVec.ofNat 12 (0x030 + 4 * i)
  | .dout i => BitVec.ofNat 12 (0x040 + 4 * i)
  | .reserved => 0x008

/-- The only access the spec defines: 32 bits wide, at a multiple of 4, inside the window (R54). That an access beyond
the window is the same fault is a DESIGN CHOICE, log entry 4. -/
def supported (off : Offset) (size : Nat) : Bool :=
  size == Config.accessBytes && off.toNat % 4 == 0 && decide (off.toNat < Config.windowBytes)

/-- The stored value a register shows: `MemRead` of R52 but for the draw on DOUT. -/
def peek (r : Reg) (a : Arch) : Word :=
  match r with
  | .ctrl => 0
  | .status => statusWord a
  | .key i => a.key[i]
  | .din i => a.din[i]
  | .dout i => a.dout[i]
  | .reserved => 0

/-- The host reads a register: DOUT while BUSY = 1 is a fresh draw, every other read the stored value; nothing of the
core changes (R27, R52, R55). -/
def readReg (r : Reg) (s : State) : State :=
  match r with
  | .dout i =>
    if s.busy then { s with rdata := some (Config.any32 s.draws), draws := s.draws + 1 }
    else { s with rdata := some (peek (.dout i) s.toArch) }
  | r => { s with rdata := some (peek r s.toArch) }

/-- The host writes a register other than CTRL (R53); a write of CTRL is a submission, and this leaves the state as it
is. -/
def writeReg (r : Reg) (v : Word) (s : State) : State :=
  match r with
  | .ctrl => s
  | .status => if v.getLsbD 2 then clearErr s else s
  | .key i => { s with key := s.key.set i v }
  | .din i => { s with din := s.din.set i v }
  | .dout _ => s
  | .reserved => s

/-- One host read as a step (R52, R54). -/
def hostRead (off : Offset) (size : Nat) (s : State) : Result :=
  if supported off size then .next (readReg (.at off) s) else .fault (.unsupportedAccess off size)

/-- `raise Reject(code)`: the core's exception entry, and nothing else of the command happens (R272). -/
def reject (code : ErrCode) (s : State) : State := flagsReject code s

/-- The pending record of a command: its fields and the snapshot of KEY and DIN (R36, R103). -/
def snapshot (i : Instr) (s : State) : Pending where
  op := i.op
  ksize := i.ksize
  tsel := i.tsel
  key := s.key
  din := s.din

/-- `accept(op, ksize, tsel)` (R103). -/
def accept (i : Instr) (s : State) : State := { flagsAccept s with pend := some (snapshot i s) }

/-- The tail of `complete()`: the flags of completion and `pend <- None` (R104). -/
def retire (s : State) : State := { flagsComplete s with pend := none }

/-- The checks of `submit(v)` that come before any command is known: BUSY, then ILLEGAL_CMD; the word's command if it
passes both (R101, R274). -/
def precheck (v : Word) (s : State) : Except ErrCode Instr :=
  if s.busy then .error .busy
  else
    match decode v with
    | .error _ => .error .illegalCmd
    | .ok i => .ok i

/-- A submission decided: rejected with the code its own check found, or accepted (R101). -/
def decided (i : Instr) (found : Option ErrCode) (s : State) : State :=
  match found with
  | some code => reject code s
  | none => accept i s

/-- The two steps every command goes through. With no command pending, the command is being submitted: its own check of
R101 rejects it, or it is accepted. With a command pending, the engine completes it: its effect, then the tail of
`complete()` (R101, R103, R104). DESIGN CHOICE, log entry 1. -/
def runCommand (i : Instr) (check : State → Option ErrCode) (effect : Pending → State → Result) (s : State) : Result :=
  match s.pend with
  | none => .next (decided i (check s) s)
  | some p =>
    match effect p s with
    | .next t => .next (retire t)
    | .fault r => .fault r
    | .refused r => .refused r

/-- The command-specific check of a command that has none (R101). -/
def noCheck (_ : State) : Option ErrCode := none

/-- The word of a pending record; its reserved bits are 0, as acceptance found them. -/
def Pending.word (p : Pending) : Word := commandWord p.op p.ksize p.tsel

/-- Reset: every piece of the core's state takes its reset value and a pending command is discarded (R110, R300). The
turns still to come, the last read value and the draw count are the model's, and stay. -/
def resetCore (s : State) : State := { s with toArch := Arch.reset }

end Sys2Proof.Machine
end

