-- ==== Sys2Proof/Machine/Operands.lean ====
section
/-! DEFINITION. The operand forms of the commands: how values are taken from the pending snapshot and the schedule stores,
and how results go to DOUT, RK and SK (spec R57-R59, R73, R74, R76, R105, R106). -/

namespace Sys2Proof.Machine

/-- `nk(k) = 4 + 2·k`, the key length in words (R73). -/
def nkOf (ksize : BitVec 2) : Nat := 4 + 2 * ksize.toNat

/-- `nr(k) = nk(k) + 6`, the round count (R73). -/
def nrOf (ksize : BitVec 2) : Nat := nkOf ksize + 6

/-- The number of schedule words, `4·(nr+1)` (R73, R174). -/
def scheduleWords (ksize : BitVec 2) : Nat := 4 * (nrOf ksize + 1)

/-- The AES key words of a snapshot: KEY0..KEY(nk-1), the rest ignored (R23, R57). -/
def Pending.aesKey (p : Pending) (nk : Nat) : List AesWord := (p.key.toList.take nk).map bytes

/-- A 16-byte block in four registers as the state matrix: register `c` is column `c`, row 0 in bits 31:24 (R58). -/
def aesBlock (d : Vector Word 4) : AesState := .of fun r c => (bytes d[c])[r]

/-- The state matrix back in four registers (R58, R182). -/
def aesBlockWords (s : AesState) : Vector Word 4 := .ofFn fun c => pack (s.column c)

/-- A 64-bit DES value in two registers, the high word first (R59). -/
def pair64 (hi lo : Word) : BitVec 64 := hi ++ lo

/-- A 48-bit DES value in a register and the high half of the next (R245, R246). -/
def pair48 (hi lo : Word) : BitVec 48 := hi ++ lo.extractLsb' 16 16

/-- Bits 7:0 of a register, an operand of GF_MUL (R241). -/
def lowByte (v : Word) : Byte := v.extractLsb' 0 8

/-- The table TSEL selects, with its input length (R74); none for 6 and 7. -/
def permTable (tsel : BitVec 3) : Option (List Nat × Nat) :=
  match tsel.toNat with
  | 0 => some (Tables.pc1, 64)
  | 1 => some (Tables.pc2, 56)
  | 2 => some (Tables.ip, 64)
  | 3 => some (Tables.ipinv, 64)
  | 4 => some (Tables.e, 32)
  | 5 => some (Tables.p, 32)
  | _ => none

/-- A result of 32 bits in DOUT0, the other words 0 (R106). -/
def result32 (v : Word) : Vector Word 4 := #v[v, 0, 0, 0]

/-- A result of 64 bits in DOUT0 ‖ DOUT1, the other words 0 (R106). -/
def result64 (z : BitVec 64) : Vector Word 4 := #v[z.extractLsb' 32 32, z.extractLsb' 0 32, 0, 0]

/-- All four DOUT words written, as every output command does (R105). -/
def writeDout (d : Vector Word 4) (s : State) : State := { s with dout := d }

/-- The values of a run of store entries, numbered from `first`; the number of the first `NoValue` among them if there is
one (R41). -/
def storeValues {α : Type} : Nat → List (Option α) → Except Nat (List α)
  | _, [] => .ok []
  | first, none :: _ => .error first
  | first, some v :: rest =>
    match storeValues (first + 1) rest with
    | .ok vs => .ok (v :: vs)
    | .error i => .error i

/-- The first `count` words of RK; an entry beyond `rk[59]` counts as `NoValue` (R34, R182). -/
def readRk (count : Nat) (s : State) : Except Nat (List Word) :=
  storeValues 0 ((List.range count).map fun i => s.rk.toList.getD i none)

/-- The subkeys `sk[1..16]` (R35, R217). -/
def readSk (s : State) : Except Nat (List (BitVec 48)) := storeValues 1 s.sk.toList

/-- RK with a schedule in its first words and `NoValue` in the rest (R34, R181). -/
def rkOf (w : List Word) : Vector (Option Word) 60 := .ofFn fun i => w[i.val]?

/-- SK with the listed subkeys, `sk[n]` the n-th (R35, R216). -/
def skOf (k : List (BitVec 48)) : Vector (Option (BitVec 48)) 16 := .ofFn fun i => k[i.val]?

end Sys2Proof.Machine
end

