-- ==== Sys2Proof/Machine/Aes.lean ====
section
/-! DEFINITION. The AES commands: AES_KEYEXP and AES_ENC (spec R181, R182). -/

namespace Sys2Proof.Machine

/-- The words AES_KEYEXP stores: `pack(w[i])` of the expansion of the snapshot's key (R181). -/
def aesSchedule (p : Pending) : List Word :=
  (keyExpansion (p.aesKey (nkOf p.ksize)) (nkOf p.ksize) (nrOf p.ksize)).map pack

/-- What AES_KEYEXP does at completion: RK, AES_KV and AES_KSIZE (R181). -/
def keyexpEffect (p : Pending) (s : State) : Result :=
  if p.ksize = 3 then .refused .pendingNeverAccepted
  else .next { s with rk := rkOf (aesSchedule p), aes_kv := true, aes_ks := p.ksize }

/-- AES_KEYEXP: KSIZE = 3 is rejected with INVALID_KEY_SIZE (R101, R181). -/
def execAesKeyexp (ksize : BitVec 2) (s : State) : Result :=
  runCommand (.aesKeyexp ksize) (fun _ => if ksize = 3 then some .invalidKeySize else none) keyexpEffect s

/-- What AES_ENC does at completion: the cipher of the DIN snapshot under the stored schedule, `nr` taken from AES_KSIZE,
into DOUT (R182). -/
def aesEncEffect (p : Pending) (s : State) : Result :=
  match readRk (scheduleWords s.aes_ks) s with
  | .error i => .fault (.unwrittenStore i)
  | .ok w => .next (writeDout (aesBlockWords (cipher (aesBlock p.din) (nrOf s.aes_ks) (w.map bytes))) s)

/-- AES_ENC: rejected with NO_AES_SCHEDULE while AES_KV = 0 (R101, R182). -/
def execAesEnc (s : State) : Result :=
  runCommand .aesEnc (fun t => if t.aes_kv then none else some .noAesSchedule) aesEncEffect s

end Sys2Proof.Machine
end

