-- ==== Sys2Proof/Machine/Control.lean ====
section
/-! DEFINITION. The command that does nothing: NOP (spec R109). -/

namespace Sys2Proof.Machine

/-- NOP: accepted always; completion changes only BUSY, DONE and `pend` (R109). -/
def execNop (s : State) : Result := runCommand .nop noCheck (fun _ t => .next t) s

end Sys2Proof.Machine
end

