-- ==== Sys2Proof/Machine/Des.lean ====
section
/-! DEFINITION. The DES commands: DES_KEYSCHED and DES_ENC (spec R216, R217). -/

namespace Sys2Proof.Machine

/-- The subkeys DES_KEYSCHED stores, from KEY0 ‖ KEY1 of the snapshot (R216). -/
def desSchedule (p : Pending) : List (BitVec 48) :=
  (desKeySchedule (bitseq (pair64 p.key[0] p.key[1]))).map fun k => BitVec.ofNat 48 (val k)

/-- DES_KEYSCHED: never rejected by a check of its own; completion writes SK and DES_KV (R216). -/
def execDesKeysched (s : State) : Result :=
  runCommand .desKeysched noCheck
    (fun p t => .next { t with sk := skOf (desSchedule p), des_kv := true }) s

/-- What DES_ENC does at completion: the encryption of DIN0 ‖ DIN1 of the snapshot under the stored subkeys, into DOUT0
and DOUT1, with DOUT2 and DOUT3 0 (R217). -/
def desEncEffect (p : Pending) (s : State) : Result :=
  match readSk s with
  | .error i => .fault (.unwrittenStore i)
  | .ok k =>
    let c := val (desEncrypt (bitseq (pair64 p.din[0] p.din[1])) (k.map bitseq))
    .next (writeDout (result64 (BitVec.ofNat 64 c)) s)

/-- DES_ENC: rejected with NO_DES_SCHEDULE while DES_KV = 0 (R101, R217). -/
def execDesEnc (s : State) : Result :=
  runCommand .desEnc (fun t => if t.des_kv then none else some .noDesSchedule) desEncEffect s

end Sys2Proof.Machine
end

