-- ==== Sys2Proof/Machine/Diagnostic.lean ====
section
/-! DEFINITION. The diagnostic commands for the leaf units: GF_MUL, AES_SUBWORD, AES_MIXCOL, DES_PERM, DES_SBOX and DES_F
(spec R240-R246). -/

namespace Sys2Proof.Machine

/-- A diagnostic command whose result is one register: it reads the DIN snapshot only and writes all of DOUT (R240). -/
def runDiagnostic (i : Instr) (f : Vector Word 4 → Word) (s : State) : Result :=
  runCommand i noCheck (fun p t => .next (writeDout (result32 (f p.din)) t)) s

/-- GF_MUL's result (R241). -/
def gfMulWord (d : Vector Word 4) : Word := (gfMul (lowByte d[0]) (lowByte d[1])).setWidth 32

/-- GF_MUL (R241). -/
def execGfMul (s : State) : Result := runDiagnostic .gfMul gfMulWord s

/-- AES_SUBWORD's result (R242). -/
def subwordWord (d : Vector Word 4) : Word := pack (subWord (bytes d[0]))

/-- AES_SUBWORD (R242). -/
def execAesSubword (s : State) : Result := runDiagnostic .aesSubword subwordWord s

/-- AES_MIXCOL's result (R243). -/
def mixcolWord (d : Vector Word 4) : Word := pack (mixColumn (bytes d[0]))

/-- AES_MIXCOL (R243). -/
def execAesMixcol (s : State) : Result := runDiagnostic .aesMixcol mixcolWord s

/-- `z` of R244: the table's output, left-justified in 64 bits; the input is the first `nIn` bits of DIN0 ‖ DIN1. -/
def permResult (table : List Nat) (nIn : Nat) (d : Vector Word 4) : BitVec 64 :=
  let y := permute ((bitseq (pair64 d[0] d[1])).take nIn) table
  BitVec.ofNat 64 (val y) <<< (64 - table.length)

/-- What DES_PERM does at completion (R244). -/
def permEffect (p : Pending) (s : State) : Result :=
  match permTable p.tsel with
  | none => .refused .pendingNeverAccepted
  | some (table, nIn) => .next (writeDout (result64 (permResult table nIn p.din)) s)

/-- DES_PERM: TSEL = 6 or 7 is rejected with INVALID_TABLE (R101, R244). -/
def execDesPerm (tsel : BitVec 3) (s : State) : Result :=
  runCommand (.desPerm tsel) (fun _ => if tsel < 6 then none else some .invalidTable) permEffect s

/-- DES_SBOX's result (R245). -/
def sboxWord (d : Vector Word 4) : Word := BitVec.ofNat 32 (val (sboxLayer (bitseq (pair48 d[0] d[1]))))

/-- DES_SBOX (R245). -/
def execDesSbox (s : State) : Result := runDiagnostic .desSbox sboxWord s

/-- DES_F's result (R246). -/
def desFWord (d : Vector Word 4) : Word := BitVec.ofNat 32 (val (desF (bitseq d[0]) (bitseq (pair48 d[1] d[2]))))

/-- DES_F (R246). -/
def execDesF (s : State) : Result := runDiagnostic .desF desFWord s

end Sys2Proof.Machine
end

