-- ==== Sys2Proof/Machine/Dispatch.lean ====
section
/-! DEFINITION. The dispatch: one arm per command, each one call of its meaning (spec R72, R104). -/

namespace Sys2Proof.Machine

-- The next step of a command: its submission when no command is pending, its completion when one is (R101, R104).
def exec (i : Instr) (s : State) : Host.Outcome State Fault Refusal :=
  match i with
  | .nop => Sys2Proof.Machine.execNop s
  | .aesKeyexp ksize => Sys2Proof.Machine.execAesKeyexp ksize s
  | .aesEnc => Sys2Proof.Machine.execAesEnc s
  | .desKeysched => Sys2Proof.Machine.execDesKeysched s
  | .desEnc => Sys2Proof.Machine.execDesEnc s
  | .gfMul => Sys2Proof.Machine.execGfMul s
  | .aesSubword => Sys2Proof.Machine.execAesSubword s
  | .desPerm tsel => Sys2Proof.Machine.execDesPerm tsel s
  | .desSbox => Sys2Proof.Machine.execDesSbox s
  | .aesMixcol => Sys2Proof.Machine.execAesMixcol s
  | .desF => Sys2Proof.Machine.execDesF s

end Sys2Proof.Machine
end

