-- ==== Sys2Proof/Machine/Turns.lean ====
section
/-! DEFINITION. The turns of the host, the platform and the engine (spec R7, R8, R100, R104, R300), and how the next turn
is taken. The core has no program counter and fetches nothing (R21); where it takes its next command is a write of CTRL,
and the pending record. -/

namespace Sys2Proof.Machine

/-- `submit(v)`: BUSY and ILLEGAL_CMD first, then the command's own check and its acceptance, in the step of the write
(R100, R101). -/
def submit (v : Word) (s : State) : Result :=
  match precheck v s with
  | .error code => .next (reject code s)
  | .ok i => exec i s

/-- One host write as a step (R53, R54). -/
def hostWrite (off : Offset) (size : Nat) (v : Word) (s : State) : Result :=
  if supported off size then
    if Reg.at off = .ctrl then submit v s else .next (writeReg (.at off) v s)
  else .fault (.unsupportedAccess off size)

/-- The engine's turn: the completion step when a command is pending, else nothing (R104). -/
def engineTurn (s : State) : Result :=
  match s.pend with
  | none => .next s
  | some p =>
    match decode p.word with
    | .ok i => exec i s
    | .error _ => .refused .pendingNeverAccepted

/-- One turn of one agent (R7). -/
def turn (e : Event) (s : State) : Result :=
  match e with
  | .read off size => hostRead off size s
  | .write off size v => hostWrite off size v s
  | .reset => .next (resetCore s)
  | .engine => engineTurn s

/-- The next turn. When nothing is scheduled the engine has it, so that a pending command always completes (R8); an idle
core with nothing scheduled waits as it is (R302). DESIGN CHOICE, log entry 2. -/
def takeTurn (s : State) : Result :=
  match s.events with
  | [] => engineTurn s
  | e :: rest => turn e { s with events := rest }

/-- The state with a CTRL write of `v` as its next turn and the engine idle: the core decodes a command only while idle
(R101). DESIGN CHOICE, log entry 6. -/
def placeCommand (v : Word) (s : State) : State :=
  { s with events := .write 0x000 Config.accessBytes v :: s.events, busy := false, pend := none }

end Sys2Proof.Machine
end

