-- ==== Sys2Proof/Machine/Step.lean ====
section
/-! DEFINITION. One step of the machine, and how a command word is placed for it. -/

namespace Sys2Proof.Machine

/-- One step: the next turn of one agent is taken (R7, R8). -/
def step (s : State) : Host.Outcome State Fault Refusal := takeTurn s

/-- The state in which the next step is the CTRL write of the given table word, the engine being idle. -/
def State.withFetchWord (s : State) (nbits w : Nat) : State := placeCommand (tableWord nbits w) s

end Sys2Proof.Machine
end

