-- ==== Sys2Proof/Safety.lean ====
section
/-! DEFINITION. What claims are stated in: the invariant of the core's record, and what a safe step is. -/

namespace Sys2Proof.Machine

/-- A pending record that acceptance can have made: a command that decodes, with KSIZE and TSEL in range (R101, R103),
whose schedule is there if it needs one. -/
def Pending.Accepted (p : Pending) (a : Arch) : Prop :=
  ∃ i : Instr, decode p.word = .ok i ∧ i.wf = true ∧ (i = .aesEnc → a.aes_kv = true) ∧
    (i = .desEnc → a.des_kv = true)

/-- Exactly the first `4·(nr+1)` words of RK hold values (R34, R183). -/
def Arch.aesStoreHolds (a : Arch) : Prop :=
  ∀ i : Fin 60, a.rk[i].isSome = decide (i.val < scheduleWords a.aes_ks)

/-- The invariant of the core's record. -/
structure Arch.Inv (a : Arch) : Prop where
  /-- `busy = 1` exactly when `pend ≠ None` (R29). -/
  busy_pend : a.busy = a.pend.isSome
  /-- BUSY and DONE are never both 1 (R25). -/
  busy_done : (a.busy && a.done) = false
  /-- ERRCODE is 0 exactly when ERR is 0 (R25). -/
  err_code : a.err = (a.errcode != 0)
  /-- ERRCODE is one of 0..6 (R25, R271). -/
  code_range : a.errcode ≤ 6
  /-- AES_KSIZE is never 3 (R25). -/
  ks_range : a.aes_ks ≠ 3
  /-- AES_KV = 1: RK holds a schedule of the size AES_KSIZE says (R32, R34). -/
  aes_store : a.aes_kv = true → a.aesStoreHolds
  /-- AES_KV = 0: RK holds nothing and AES_KSIZE is 0, as after reset (R32, R41). -/
  aes_empty : a.aes_kv = false → a.rk = .replicate 60 none ∧ a.aes_ks = 0
  /-- DES_KV says whether SK holds its 16 subkeys or none (R32, R41, R218). -/
  des_store : ∀ n : Fin 16, a.sk[n].isSome = a.des_kv
  /-- A pending record is one that acceptance made (R101, R103). -/
  pend_accepted : ∀ p, a.pend = some p → p.Accepted a

/-- The next turn is a host access the spec does not define (R54). -/
def State.unsupportedNext (s : State) (off : Offset) (size : Nat) : Prop :=
  supported off size = false ∧
    ((∃ rest, s.events = .read off size :: rest) ∨ (∃ v rest, s.events = .write off size v :: rest))

/-- The step goes on: no fault and no refusal. -/
def State.Safe (s : State) : Prop := ∃ t, step s = .next t

end Sys2Proof.Machine
end

