-- ==== Sys2Proof/Certificates/Slice0/Obligations.lean ====
section
/-! DEFINITION. The statements about the core, one `def Obligations.<Name> : Prop` each, from the numbered rules of the
spec. Nothing is proved here. -/

open Sys2Proof Sys2Proof.Machine

namespace Sys2Proof.Claims

/-- The carry-less product of two polynomials over GF(2), coefficient `k` in bit `k`, below degree 16. -/
def polyMul (a b : BitVec 16) : BitVec 16 :=
  (List.range 16).foldl (fun acc i => if b.getLsbD i then acc ^^^ (a <<< i) else acc) 0

/-- A command that writes DOUT at completion (R105). -/
def IsOutput (i : Instr) : Prop :=
  i ∈ [.aesEnc, .desEnc, .gfMul, .aesSubword, .desSbox, .aesMixcol, .desF] ∨ ∃ t, i = .desPerm t

/-- A command of the AES engine (R33). -/
def IsAes (i : Instr) : Prop := (∃ k, i = .aesKeyexp k) ∨ i = .aesEnc

/-- A command of the DES engine (R33). -/
def IsDes (i : Instr) : Prop := i = .desKeysched ∨ i = .desEnc

/-- The state a completed command leaves but for its own effect: BUSY = 0, DONE = 1, nothing pending (R104). -/
def completed (s : State) : State := { s with busy := false, done := true, pend := none }

/-- The state a rejection leaves: ERR, ERRCODE, and DONE unless the code is BUSY's 5 (R272). -/
def rejected (code : BitVec 4) (s : State) : State :=
  { s with err := true, errcode := code, done := if code = 5 then s.done else false }

/-- The state an acceptance leaves (R103). -/
def accepted (op : BitVec 4) (ksize : BitVec 2) (tsel : BitVec 3) (s : State) : State :=
  { s with
    pend := some { op := op, ksize := ksize, tsel := tsel, key := s.key, din := s.din }
    busy := true
    done := false
    err := false
    errcode := 0 }

/-- Everything but DOUT, the schedule stores with their flags, BUSY, DONE and `pend` is the same. -/
def SameButResults (s t : State) : Prop :=
  t.key = s.key ∧ t.din = s.din ∧ t.err = s.err ∧ t.errcode = s.errcode ∧ t.events = s.events ∧
    t.rdata = s.rdata ∧ t.draws = s.draws

/-- The AES schedule store and its flags are the same. -/
def SameAesStore (s t : State) : Prop := t.rk = s.rk ∧ t.aes_kv = s.aes_kv ∧ t.aes_ks = s.aes_ks

/-- The DES subkey store and its flag are the same. -/
def SameDesStore (s t : State) : Prop := t.sk = s.sk ∧ t.des_kv = s.des_kv

/-- Every register of the window but STATUS and DOUT reads as before. -/
def SameWindow (s t : State) : Prop :=
  ∀ r : Reg, r ≠ .status → (∀ i, r ≠ .dout i) → peek r t.toArch = peek r s.toArch

/-- The AES key of a snapshot for a KSIZE, as words (R23, R57). -/
def snapshotKey (p : Pending) (k : BitVec 2) : List AesWord := (p.key.toList.take (4 + 2 * k.toNat)).map bytes

/-- The state matrix of a block in four registers: byte `r` of register `c`, the most significant first, is at row `r` and
column `c` (R12, R58). -/
def loaded (d : Vector Word 4) : AesState := .ofFn fun r => .ofFn fun c => d[c].extractLsb' (24 - 8 * r.val) 8

/-- The four registers of a state matrix: register `c` packs column `c`, row 0 in bits 31:24 (R58, R182). -/
def stored (m : AesState) : Vector Word 4 := .ofFn fun c => pack #v[m[0][c], m[1][c], m[2][c], m[3][c]]

end Sys2Proof.Claims

open Sys2Proof.Claims

/-! ### Encoding -/

/-- The command words of R72, R73, R74 and R82, written out, and the reserved opcodes. -/
def Obligations.SpecWordsDecode : Prop :=
  decode 0x00000000 = .ok .nop ∧ decode 0x00000001 = .ok (.aesKeyexp 0) ∧ decode 0x00000011 = .ok (.aesKeyexp 1) ∧
    decode 0x00000021 = .ok (.aesKeyexp 2) ∧ decode 0x00000031 = .ok (.aesKeyexp 3) ∧
    decode 0x00000002 = .ok .aesEnc ∧ decode 0x00000003 = .ok .desKeysched ∧ decode 0x00000004 = .ok .desEnc ∧
    decode 0x00000005 = .ok .gfMul ∧ decode 0x00000006 = .ok .aesSubword ∧ decode 0x00000507 = .ok (.desPerm 5) ∧
    decode 0x00000707 = .ok (.desPerm 7) ∧ decode 0x00000008 = .ok .desSbox ∧ decode 0x00000009 = .ok .aesMixcol ∧
    decode 0x0000000A = .ok .desF ∧ decode 0x0000000B = .error .reservedOpcode ∧
    decode 0x0000000F = .error .reservedOpcode ∧ decode 0x00000012 = .error .reservedBits ∧
    decode 0x00000105 = .error .reservedBits ∧ decode 0x80000000 = .error .reservedBits

/-- A word decodes to a command exactly when it is the command's own word: no bit of an encoding is dropped, and no
other word spells the command (R71, R72, R82). -/
def Obligations.DecodeIsInverseOfEncode : Prop :=
  ∀ (v : Word) (i : Instr), decode v = .ok i ↔ v = encode i

/-- The words that decode to an operation are exactly those of the rows of opcode_table.json, and no word is in two rows
(R78). -/
def Obligations.DecodedWordsAreTheTableRows : Prop :=
  ∀ v : Word, ((∃ i, decode v = .ok i) ↔ ∃ r ∈ opcodeTable, v &&& r.mask = r.pattern) ∧
    ∀ r ∈ opcodeTable, ∀ r' ∈ opcodeTable, v &&& r.mask = r.pattern → v &&& r'.mask = r'.pattern → r = r'

/-- R75's formula decides whether a word decodes, and a CTRL write of a word that is not well-formed is rejected with
ILLEGAL_CMD on an idle core (R75). -/
def Obligations.IllFormedWordsAreRejected : Prop :=
  ∀ (v : Word) (s : State) (rest : List Event),
    let op := v.extractLsb' 0 4
    let fields : Word := if op = 0x1 then 0x030 else if op = 0x7 then 0x700 else 0
    let wf := op.toNat ≤ 0xA ∧ v &&& ~~~(0x0000000F ||| fields) = 0
    ((∃ i, decode v = .ok i) ↔ wf) ∧
      (s.busy = false → ¬wf →
        step { s with events := .write 0x000 4 v :: rest } = .next (rejected 1 { s with events := rest }))

/-! ### Leaf units -/

/-- `bitseq_n` and `val`: entry `i` is bit `n-1-i`, `val` is the weighted sum, and each undoes the other (R120, R121). -/
def Obligations.BitSequencesAreMsbFirst : Prop :=
  (∀ (n : Nat) (v : BitVec n), (bitseq v).length = n ∧ (∀ i < n, (bitseq v)[i]? = some (v.getLsbD (n - 1 - i))) ∧
    val (bitseq v) = v.toNat) ∧
  ∀ b : Bits, val b = ∑ i : Fin b.length, (b[i]).toNat * 2 ^ (b.length - 1 - i) ∧
    bitseq (BitVec.ofNat b.length (val b)) = b

/-- `permute` reads its table 1-based (R122). -/
def Obligations.PermuteReadsItsTableOneBased : Prop :=
  ∀ (b : Bits) (table : List Nat), (∀ t ∈ table, 1 ≤ t ∧ t ≤ b.length) →
    (permute b table).length = table.length ∧
      ∀ (i : Nat) (h : i < table.length), (permute b table)[i]? = b[table[i] - 1]?

/-- `rotl` moves elements toward index 0 (R123). -/
def Obligations.RotationMovesTowardIndexZero : Prop :=
  ∀ (α : Type) (b : List α) (s i : Nat), s < b.length → i < b.length →
    (rotl b s)[i]? = b[(i + s) % b.length]?

/-- The source's three laws of `gf_mul`, and its special cases (R126). -/
def Obligations.GfMulObeysItsLaws : Prop :=
  (∀ x : Byte, gfMul x 1 = x ∧ gfMul x 0 = 0) ∧
    (∀ x a b : Byte, gfMul x (a ^^^ b) = gfMul x a ^^^ gfMul x b) ∧
    (∀ m : Byte, gfMul 2 m = (m <<< 1) ^^^ (if m.getLsbD 7 then 0x1B else 0)) ∧
    ∀ m : Byte, gfMul 3 m = gfMul 2 m ^^^ m

/-- `gf_mul` is multiplication in GF(2^8): the remainder of the polynomial product modulo `x^8 + x^4 + x^3 + x + 1`,
commutative, associative, without zero divisors, every nonzero byte invertible (R126). -/
def Obligations.GfMulIsTheFieldProduct : Prop :=
  (∀ m n : Byte, ∃ q : Byte, polyMul (m.setWidth 16) (n.setWidth 16) =
      polyMul (q.setWidth 16) 0x11B ^^^ (gfMul m n).setWidth 16) ∧
    (∀ m n : Byte, gfMul m n = gfMul n m) ∧
    (∀ a b c : Byte, gfMul (gfMul a b) c = gfMul a (gfMul b c)) ∧
    (∀ m : Byte, m ≠ 0 → ∃ n : Byte, gfMul m n = 1) ∧
    ∀ m n : Byte, gfMul m n = 0 ↔ m = 0 ∨ n = 0

/-- The AES S-box is a bijection on the 256 bytes (R141). -/
def Obligations.AesSboxIsBijective : Prop := Function.Bijective sAes

/-- The AES S-box is the field inverse, 0 going to 0, followed by the affine map (R140). -/
def Obligations.AesSboxIsInverseThenAffine : Prop :=
  ∀ b : Byte, ∃ inv : Byte, (b = 0 → inv = 0) ∧ (b ≠ 0 → gfMul b inv = 1) ∧
    sAes b = inv ^^^ inv.rotateLeft 1 ^^^ inv.rotateLeft 2 ^^^ inv.rotateLeft 3 ^^^ inv.rotateLeft 4 ^^^ 0x63

/-- Each row of each DES S-box is a permutation of 0..15, so each value occurs four times in a box (R160). -/
def Obligations.DesSboxRowsArePermutations : Prop :=
  ∀ k < 8, (∀ row < 4, ((List.range 16).map fun col => sDesEntry (k + 1) row col).Perm (List.range 16)) ∧
    ∀ value < 16, ((List.range 64).filter fun i => sDesEntry (k + 1) (i / 16) (i % 16) == value).length = 4

/-- The properties of the DES permutation tables (R161). -/
def Obligations.PermutationTablesHaveTheirProperties : Prop :=
  (Tables.pc1.length = 56 ∧ Tables.pc1.Nodup ∧ ∀ t ∈ Tables.pc1, 1 ≤ t ∧ t ≤ 64) ∧
    (Tables.pc2.length = 48 ∧ Tables.pc2.Nodup ∧ ∀ t ∈ Tables.pc2, 1 ≤ t ∧ t ≤ 56) ∧
    Tables.ip.Perm (List.range' 1 64) ∧ Tables.ipinv.Perm (List.range' 1 64) ∧
    (∀ i < 64, Tables.ip.getD (Tables.ipinv.getD i 0 - 1) 0 = i + 1) ∧
    (Tables.e.length = 48 ∧ (∀ t ∈ Tables.e, 1 ≤ t ∧ t ≤ 32) ∧
      (∀ t < 32, Tables.e.count (t + 1) = 1 ∨ Tables.e.count (t + 1) = 2) ∧
      ((List.range 32).filter fun t => Tables.e.count (t + 1) == 2).length = 16) ∧
    Tables.p.Perm (List.range' 1 32)

/-- IP and its inverse undo each other on every 64-bit value (R148). -/
def Obligations.InitialAndFinalPermutationsAreInverse : Prop :=
  ∀ x : BitVec 64, permute (permute (bitseq x) Tables.ip) Tables.ipinv = bitseq x ∧
    permute (permute (bitseq x) Tables.ipinv) Tables.ip = bitseq x

/-- The S-box layer: group `i` of six bits goes through box `i + 1`, its row from the first and last bit, its column from
the four between, and the four result bits stand at `4i`, the most significant first (R128, R129). -/
def Obligations.SboxLayerLooksUpSixBitGroups : Prop :=
  ∀ x : Bits, x.length = 48 → (sboxLayer x).length = 32 ∧
    ∀ i < 8, ∀ j < 4,
      let bit := fun n => (x.getD (6 * i + n) false).toNat
      let row := 2 * bit 0 + bit 5
      let col := 8 * bit 1 + 4 * bit 2 + 2 * bit 3 + bit 4
      (sboxLayer x)[4 * i + j]? = some ((sDesEntry (i + 1) row col).testBit (3 - j))

/-! ### The AES engine -/

/-- The four round transformations, byte by byte (R175, R176, R177, R178). -/
def Obligations.RoundTransformationsByRowAndColumn : Prop :=
  ∀ (s : AesState) (w : List AesWord) (round : Nat) (r c : Fin 4),
    (subBytes s)[r][c] = sAes s[r][c] ∧
    (shiftRows s)[r][c] = s[r][(c.val + r.val) % 4]'(Nat.mod_lt _ (by decide)) ∧
    (mixColumns s)[0][c] = gfMul 2 s[0][c] ^^^ gfMul 3 s[1][c] ^^^ gfMul 1 s[2][c] ^^^ gfMul 1 s[3][c] ∧
    (mixColumns s)[1][c] = gfMul 1 s[0][c] ^^^ gfMul 2 s[1][c] ^^^ gfMul 3 s[2][c] ^^^ gfMul 1 s[3][c] ∧
    (mixColumns s)[2][c] = gfMul 1 s[0][c] ^^^ gfMul 1 s[1][c] ^^^ gfMul 2 s[2][c] ^^^ gfMul 3 s[3][c] ∧
    (mixColumns s)[3][c] = gfMul 3 s[0][c] ^^^ gfMul 1 s[1][c] ^^^ gfMul 1 s[2][c] ^^^ gfMul 2 s[3][c] ∧
    (addRoundKey s w round)[r][c] = s[r][c] ^^^ (w.getD (4 * round + c.val) (.replicate 4 0))[r]

/-- `pack` and `bytes` undo each other, and `RotWord` in packed form is a rotation by eight bits (R130, R171). -/
def Obligations.WordsPackMostSignificantFirst : Prop :=
  (∀ v : Word, pack (bytes v) = v ∧ (bytes v)[0] = v.extractLsb' 24 8 ∧ (bytes v)[1] = v.extractLsb' 16 8 ∧
      (bytes v)[2] = v.extractLsb' 8 8 ∧ (bytes v)[3] = v.extractLsb' 0 8) ∧
    ∀ w : AesWord, bytes (pack w) = w ∧ rotWord w = #v[w[1], w[2], w[3], w[0]] ∧
      pack (rotWord w) = (pack w <<< 8) ||| (pack w >>> 24)

/-- The key expansion: `4·(nr+1)` words, the key first, then each word from the one before it and the one `nk` back
(R173, R174). -/
def Obligations.KeyExpansionFollowsItsRecurrence : Prop :=
  ∀ (key : List AesWord) (nk nr : Nat), nk ∈ [4, 6, 8] → nr = nk + 6 → key.length = nk →
    let w := keyExpansion key nk nr
    w.length = 4 * (nr + 1) ∧ w.take nk = key ∧
      ∀ i, nk ≤ i → i < 4 * (nr + 1) →
        let temp := wordAt w (i - 1)
        wordAt w i = xorWord (wordAt w (i - nk))
          (if i % nk = 0 then
            xorWord (subWord (rotWord temp)) #v[Tables.rcon.getD (i / nk - 1) 0, 0, 0, 0]
          else if 6 < nk ∧ i % nk = 4 then subWord temp
          else temp)

/-- The ten round constants are the powers of `x` (R142). -/
def Obligations.RoundConstantsArePowersOfX : Prop :=
  Tables.rcon.length = 10 ∧ Tables.rcon[0]? = some 0x01 ∧
    ∀ j < 9, Tables.rcon.getD (j + 1) 0 = gfMul 2 (Tables.rcon.getD j 0)

/-- The cipher round by round: round key 0 first, `nr - 1` full rounds, and a last round without MixColumns (R179). -/
def Obligations.CipherRunsItsRounds : Prop :=
  ∀ (s : AesState) (nr : Nat) (w : List AesWord), 1 ≤ nr →
    ∃ state : Nat → AesState, state 0 = addRoundKey s w 0 ∧
      (∀ round, 1 ≤ round → round < nr →
        state round = addRoundKey (mixColumns (shiftRows (subBytes (state (round - 1))))) w round) ∧
      cipher s nr w = addRoundKey (shiftRows (subBytes (state (nr - 1)))) w nr

/-! ### The DES engine -/

/-- Sixteen subkeys of 48 bits; subkey `n` is PC-2 of the halves of PC-1 rotated by the sum of the first `n` amounts,
which is 28 for the last (R211, R151, R218). -/
def Obligations.DesSubkeysComeFromRotatedHalves : Prop :=
  ∀ k : Bits, k.length = 64 →
    let c0 := (permute k Tables.pc1).take 28
    let d0 := (permute k Tables.pc1).drop 28
    (desKeySchedule k).length = 16 ∧ (∀ x ∈ desKeySchedule k, x.length = 48) ∧ Tables.shifts.sum = 28 ∧
      ∀ n < 16,
        let amount := (Tables.shifts.take (n + 1)).sum % 28
        (desKeySchedule k)[n]? = some (permute (rotl c0 amount ++ rotl d0 amount) Tables.pc2)

/-- Two keys that differ only in the parity bits 7, 15, ..., 63 have the same subkeys (R212). -/
def Obligations.ParityBitsDoNotAffectSubkeys : Prop :=
  ∀ k k' : Bits, k.length = 64 → k'.length = 64 → (∀ i < 64, i % 8 ≠ 7 → k[i]? = k'[i]?) →
    desKeySchedule k = desKeySchedule k'

/-- The encryption round by round: the halves of IP, sixteen rounds `(L, R) <- (R, L XOR F(R, Kn))` with `F` through E, the
S-box layer and P, then `R16 ‖ L16` through the inverse of IP (R213, R214). -/
def Obligations.DesEncryptRunsItsRounds : Prop :=
  ∀ (m : Bits) (subkeys : List Bits), m.length = 64 → subkeys.length = 16 → (∀ k ∈ subkeys, k.length = 48) →
    ∃ l r : Nat → Bits, l 0 = (permute m Tables.ip).take 32 ∧ r 0 = (permute m Tables.ip).drop 32 ∧
      (∀ n < 16, l (n + 1) = r n ∧ r (n + 1) = xorBits (l n)
        (permute (sboxLayer (xorBits (permute (r n) Tables.e) (subkeys.getD n []))) Tables.p)) ∧
      desEncrypt m subkeys = permute (r 16 ++ l 16) Tables.ipinv

/-- Complementing key and plaintext complements the ciphertext (R217, corner cases). -/
def Obligations.DesComplementationHolds : Prop :=
  ∀ k m : Bits, k.length = 64 → m.length = 64 →
    desEncrypt (m.map not) (desKeySchedule (k.map not)) = (desEncrypt m (desKeySchedule k)).map not

/-- Under sixteen equal subkeys, as the weak key 0x0101010101010101 gives, encrypting twice gives back the plaintext
(R216, R217, corner cases). -/
def Obligations.WeakKeyEncryptionIsAnInvolution : Prop :=
  (∀ m subkey : Bits, m.length = 64 →
    desEncrypt (desEncrypt m (.replicate 16 subkey)) (.replicate 16 subkey) = m) ∧
    desKeySchedule (bitseq (0x0101010101010101 : BitVec 64)) = .replicate 16 (.replicate 48 false)

/-! ### Submission, acceptance and rejection -/

/-- A CTRL write makes the checks of R101 in their order, and the first that fails decides the code; a word that passes
them all is accepted (R101, R103, R272, R274). -/
def Obligations.SubmissionMakesItsChecksInOrder : Prop :=
  ∀ (s : State) (v : Word) (rest : List Event), s.Inv →
    let op := v.extractLsb' 0 4
    let ksize := v.extractLsb' 4 2
    let tsel := v.extractLsb' 8 3
    let t : State := { s with events := rest }
    step { s with events := .write 0x000 4 v :: rest } = .next
      (if s.busy then rejected 5 t
      else if wellformed v = false then rejected 1 t
      else if op = 0x1 ∧ ksize = 3 then rejected 2 t
      else if op = 0x2 ∧ s.aes_kv = false then rejected 3 t
      else if op = 0x4 ∧ s.des_kv = false then rejected 4 t
      else if op = 0x7 ∧ 6 ≤ tsel then rejected 6 t
      else accepted op ksize tsel t)

/-- Every command whose own check passes is accepted by an idle core: the snapshot of KEY and DIN is taken, BUSY is set,
DONE, ERR and ERRCODE are cleared, and nothing else changes (R103). -/
def Obligations.EveryCommandIsAcceptedWhenItsCheckPasses : Prop :=
  ∀ (i : Instr) (s : State), s.pend = none → i.wf = true → (i = .aesEnc → s.aes_kv = true) →
    (i = .desEnc → s.des_kv = true) → exec i s = .next (accepted i.op i.ksize i.tsel s)

/-- Each command-specific check rejects with its code on an idle core, and nothing else changes (R101, R271, R272). -/
def Obligations.CommandsAreRejectedByTheirOwnChecks : Prop :=
  ∀ s : State, s.pend = none →
    exec (.aesKeyexp 3) s = .next (rejected 2 s) ∧
    (s.aes_kv = false → exec .aesEnc s = .next (rejected 3 s)) ∧
    (s.des_kv = false → exec .desEnc s = .next (rejected 4 s)) ∧
    exec (.desPerm 6) s = .next (rejected 6 s) ∧ exec (.desPerm 7) s = .next (rejected 6 s)

/-- A CTRL write while BUSY = 1 is rejected with code 5 whatever its word; the pending command, BUSY and DONE stay
(R272, R305). -/
def Obligations.CtrlWriteWhileBusyIsRejected : Prop :=
  ∀ (s : State) (v : Word) (rest : List Event), s.busy = true →
    step { s with events := .write 0x000 4 v :: rest } =
      .next { s with events := rest, err := true, errcode := 5 }

/-! ### Completion, command by command -/

/-- NOP completes and changes nothing but BUSY, DONE and `pend` (R109, R104). -/
def Obligations.NopCompletes : Prop :=
  ∀ (s : State) (p : Pending), s.pend = some p → exec .nop s = .next (completed s)

/-- AES_KEYEXP stores the expansion of the snapshot's key in the first words of RK, `NoValue` in the rest, and sets
AES_KV and AES_KSIZE (R181). -/
def Obligations.AesKeyexpCompletes : Prop :=
  ∀ (s : State) (p : Pending) (k : BitVec 2), s.pend = some p → p.ksize = k → k ≠ 3 →
    let nk := 4 + 2 * k.toNat
    let w := keyExpansion (snapshotKey p k) nk (nk + 6)
    w.length = 4 * (nk + 7) ∧
      exec (.aesKeyexp k) s = .next (completed { s with
        rk := .ofFn fun i => (w.map pack)[i.val]?
        aes_kv := true
        aes_ks := k })

/-- AES_ENC with a schedule `w` of the stored size in RK loads the DIN snapshot column by column, byte `r` of register `c`
to row `r` and column `c`, and writes the cipher of that matrix to DOUT the same way (R12, R58, R182). -/
def Obligations.AesEncCompletes : Prop :=
  ∀ (s : State) (p : Pending) (w : List AesWord), s.pend = some p →
    let nr := 10 + 2 * s.aes_ks.toNat
    w.length = 4 * (nr + 1) → (∀ i < 4 * (nr + 1), s.rk[i]? = some (some (pack (wordAt w i)))) →
    exec .aesEnc s = .next (completed { s with dout := stored (cipher (loaded p.din) nr w) })

/-- DES_KEYSCHED stores the sixteen subkeys of KEY0 ‖ KEY1 of the snapshot and sets DES_KV (R216). -/
def Obligations.DesKeyschedCompletes : Prop :=
  ∀ (s : State) (p : Pending), s.pend = some p →
    let k := desKeySchedule (bitseq (p.key[0] ++ p.key[1]))
    exec .desKeysched s = .next (completed { s with
      sk := .ofFn fun n => (k.map fun b => BitVec.ofNat 48 (val b))[n.val]?
      des_kv := true })

/-- DES_ENC with subkeys `k` in SK writes the encryption of DIN0 ‖ DIN1 of the snapshot to DOUT0 and DOUT1, and 0 to
DOUT2 and DOUT3 (R217). -/
def Obligations.DesEncCompletes : Prop :=
  ∀ (s : State) (p : Pending) (k : Vector (BitVec 48) 16), s.pend = some p → s.sk = k.map some →
    let c := BitVec.ofNat 64 (val (desEncrypt (bitseq (p.din[0] ++ p.din[1])) (k.toList.map bitseq)))
    exec .desEnc s = .next (completed { s with dout := #v[c.extractLsb' 32 32, c.extractLsb' 0 32, 0, 0] })

/-- GF_MUL writes the product of DIN0[7:0] and DIN1[7:0] to DOUT0 and 0 to the rest (R241). -/
def Obligations.GfMulCompletes : Prop :=
  ∀ (s : State) (p : Pending), s.pend = some p →
    exec .gfMul s = .next (completed { s with
      dout := #v[(gfMul (p.din[0].extractLsb' 0 8) (p.din[1].extractLsb' 0 8)).setWidth 32, 0, 0, 0] })

/-- AES_SUBWORD writes the S-box of each byte of DIN0 to DOUT0 and 0 to the rest (R242). -/
def Obligations.AesSubwordCompletes : Prop :=
  ∀ (s : State) (p : Pending), s.pend = some p →
    let v := p.din[0]
    exec .aesSubword s = .next (completed { s with
      dout := #v[pack #v[sAes (v.extractLsb' 24 8), sAes (v.extractLsb' 16 8), sAes (v.extractLsb' 8 8),
        sAes (v.extractLsb' 0 8)], 0, 0, 0] })

/-- AES_MIXCOL writes the MixColumns map of the column in DIN0 to DOUT0 and 0 to the rest (R243). -/
def Obligations.AesMixcolCompletes : Prop :=
  ∀ (s : State) (p : Pending), s.pend = some p →
    let a := bytes p.din[0]
    exec .aesMixcol s = .next (completed { s with
      dout := #v[pack #v[gfMul 2 a[0] ^^^ gfMul 3 a[1] ^^^ gfMul 1 a[2] ^^^ gfMul 1 a[3],
        gfMul 1 a[0] ^^^ gfMul 2 a[1] ^^^ gfMul 3 a[2] ^^^ gfMul 1 a[3],
        gfMul 1 a[0] ^^^ gfMul 1 a[1] ^^^ gfMul 2 a[2] ^^^ gfMul 3 a[3],
        gfMul 3 a[0] ^^^ gfMul 1 a[1] ^^^ gfMul 1 a[2] ^^^ gfMul 2 a[3]], 0, 0, 0] })

/-- DES_PERM writes the selected table applied to the first bits of DIN0 ‖ DIN1, left-justified, to DOUT0 and DOUT1, and
0 to the rest (R244). -/
def Obligations.DesPermCompletes : Prop :=
  ∀ (s : State) (p : Pending) (t : BitVec 3) (table : List Nat) (nIn : Nat), s.pend = some p → p.tsel = t →
    (t, table, nIn) ∈ [(0, Tables.pc1, 64), (1, Tables.pc2, 56), (2, Tables.ip, 64), (3, Tables.ipinv, 64),
      (4, Tables.e, 32), ((5 : BitVec 3), Tables.p, 32)] →
    let y := permute ((bitseq (p.din[0] ++ p.din[1])).take nIn) table
    let z := BitVec.ofNat 64 (val y) <<< (64 - table.length)
    exec (.desPerm t) s = .next (completed { s with dout := #v[z.extractLsb' 32 32, z.extractLsb' 0 32, 0, 0] })

/-- DES_SBOX writes the S-box layer of DIN0 ‖ DIN1[31:16] to DOUT0 and 0 to the rest (R245). -/
def Obligations.DesSboxCompletes : Prop :=
  ∀ (s : State) (p : Pending), s.pend = some p →
    let x := bitseq (p.din[0] ++ p.din[1].extractLsb' 16 16)
    exec .desSbox s = .next (completed { s with dout := #v[BitVec.ofNat 32 (val (sboxLayer x)), 0, 0, 0] })

/-- DES_F writes the round function of DIN0 and the subkey DIN1 ‖ DIN2[31:16] to DOUT0 and 0 to the rest (R213, R246). -/
def Obligations.DesFCompletes : Prop :=
  ∀ (s : State) (p : Pending), s.pend = some p →
    let k := bitseq (p.din[1] ++ p.din[2].extractLsb' 16 16)
    let f := permute (sboxLayer (xorBits (permute (bitseq p.din[0]) Tables.e) k)) Tables.p
    exec .desF s = .next (completed { s with dout := #v[BitVec.ofNat 32 (val f), 0, 0, 0] })

/-- Where a completion stops, and that it stops nowhere else: AES_ENC at the first `NoValue` word of its schedule, DES_ENC at
the first `NoValue` subkey, and a pending record with KSIZE = 3 or TSEL ≥ 6, which acceptance never makes (R41, R280). That
the fault names the first such entry, with entries beyond `rk[59]` counted as `NoValue`, is the model's reading (log entry
8), and the refusal its own choice (log entry 5). -/
def Obligations.CompletionsStopOnlyAsNamed : Prop :=
  ∀ (s : State) (p : Pending), s.pend = some p →
    let noWord := fun i : Nat => i < 4 * (10 + 2 * s.aes_ks.toNat + 1) ∧ (∀ j < i, ∃ v, s.rk[j]? = some (some v)) ∧
      ∀ v, s.rk[i]? ≠ some (some v)
    let noSubkey := fun n : Fin 16 => (∀ m : Fin 16, m < n → s.sk[m].isSome = true) ∧ s.sk[n] = none
    (∀ i, noWord i → exec .aesEnc s = .fault (.unwrittenStore i)) ∧
    (∀ n, noSubkey n → exec .desEnc s = .fault (.unwrittenStore (n.val + 1))) ∧
    (∀ k, p.ksize = 3 → exec (.aesKeyexp k) s = .refused .pendingNeverAccepted) ∧
    (∀ t, 6 ≤ p.tsel → exec (.desPerm t) s = .refused .pendingNeverAccepted) ∧
    ∀ i, (∀ t, exec i s ≠ .next t) → (i = .aesEnc ∧ ∃ n, noWord n) ∨ (i = .desEnc ∧ ∃ n, noSubkey n) ∨
      ((∃ k, i = .aesKeyexp k) ∧ p.ksize = 3) ∨ (∃ t, i = .desPerm t) ∧ 6 ≤ p.tsel

/-! ### Frames -/

/-- A completing output command leaves KEY, DIN, ERR, ERRCODE, both schedule stores and their flags, and every window
register but STATUS and DOUT as they were (R104, R105, R240). -/
def Obligations.OutputCommandsChangeOnlyDout : Prop :=
  ∀ (i : Instr) (s t : State) (p : Pending), IsOutput i → s.pend = some p → exec i s = .next t →
    SameButResults s t ∧ SameAesStore s t ∧ SameDesStore s t ∧ SameWindow s t ∧ t.busy = false ∧ t.done = true ∧
      t.pend = none

/-- A completing NOP, AES_KEYEXP or DES_KEYSCHED leaves DOUT and everything but the store it writes, BUSY, DONE and `pend` as
it was; BUSY becomes 0, DONE becomes 1 and nothing is pending (R104, R105, R109, R181, R216). -/
def Obligations.NonOutputCommandsKeepDout : Prop :=
  ∀ (i : Instr) (s t : State) (p : Pending), (i = .nop ∨ (∃ k, i = .aesKeyexp k) ∨ i = .desKeysched) →
    s.pend = some p → exec i s = .next t →
    SameButResults s t ∧ SameWindow s t ∧ t.dout = s.dout ∧ t.busy = false ∧ t.done = true ∧ t.pend = none ∧
      ((∃ k, i = .aesKeyexp k) ∨ SameAesStore s t) ∧ (i = .desKeysched ∨ SameDesStore s t)

/-- An output command whose result is narrower than 128 bits writes 0 to every other DOUT word (R106). -/
def Obligations.NarrowResultsClearTheOtherDoutWords : Prop :=
  ∀ (i : Instr) (s t : State) (p : Pending), s.pend = some p → exec i s = .next t →
    (i ∈ [.gfMul, .aesSubword, .desSbox, .aesMixcol, .desF] → t.dout[1] = 0 ∧ t.dout[2] = 0 ∧ t.dout[3] = 0) ∧
    (i = .desEnc ∨ (∃ k, i = .desPerm k) → t.dout[2] = 0 ∧ t.dout[3] = 0)

/-- No DES command changes RK, AES_KV or AES_KSIZE, no AES command changes SK or DES_KV, and no other command changes
either, at submission or completion (R33). -/
def Obligations.EnginesShareNoCipherState : Prop :=
  ∀ (i : Instr) (s t : State), exec i s = .next t →
    (¬IsAes i → SameAesStore s t) ∧ (¬IsDes i → SameDesStore s t)

/-- What a completion writes is a function of the pending record and, for AES_ENC and DES_ENC, of the schedule store: two
states that agree on these get the same results, whatever else they hold (R108). -/
def Obligations.CompletionDependsOnlyOnSnapshotAndStore : Prop :=
  ∀ (i : Instr) (s s' t t' : State) (p : Pending), s.pend = some p → s'.pend = some p →
    (i = .aesEnc → s.rk = s'.rk ∧ s.aes_ks = s'.aes_ks) → (i = .desEnc → s.sk = s'.sk) →
    exec i s = .next t → exec i s' = .next t' →
    (IsOutput i → t.dout = t'.dout) ∧
      ((∃ k, i = .aesKeyexp k) → t.rk = t'.rk ∧ t.aes_kv = t'.aes_kv ∧ t.aes_ks = t'.aes_ks) ∧
      (i = .desKeysched → t.sk = t'.sk ∧ t.des_kv = t'.des_kv)

/-! ### The register window -/

/-- A 32-bit read at a multiple of 4 in the window returns what R52's map says, changes nothing of the core, and draws a
fresh free value for DOUT while BUSY = 1 (R27, R52). The statement holds for every value of that draw and of the counter it
is numbered by, which is the model's (log entry 3). -/
def Obligations.HostReadsFollowTheRegisterMap : Prop :=
  ∀ (s : State) (off : Offset) (rest : List Event), off.toNat % 4 = 0 → off.toNat < 0x100 →
    let o := off.toNat
    let status : Word := (BitVec.ofBool s.des_kv ++ s.aes_ks ++ BitVec.ofBool s.aes_kv ++ s.errcode ++ 0#1 ++
      BitVec.ofBool s.err ++ BitVec.ofBool s.done ++ BitVec.ofBool s.busy).setWidth 32
    let draw := decide (0x040 ≤ o) && decide (o ≤ 0x04C) && s.busy
    let value : Word :=
      if o = 0x000 then 0
      else if o = 0x004 then status
      else if 0x010 ≤ o ∧ o ≤ 0x02C then s.key.toList.getD ((o - 0x010) / 4) 0
      else if 0x030 ≤ o ∧ o ≤ 0x03C then s.din.toList.getD ((o - 0x030) / 4) 0
      else if 0x040 ≤ o ∧ o ≤ 0x04C then
        if s.busy then Config.any32 s.draws else s.dout.toList.getD ((o - 0x040) / 4) 0
      else 0
    step { s with events := .read off 4 :: rest } =
      .next { s with events := rest, rdata := some value, draws := s.draws + (if draw then 1 else 0) }

/-- A 32-bit write at a multiple of 4 in the window, other than CTRL, does what R53's map says: STATUS bit 2 clears ERR and
ERRCODE, KEY and DIN take the value even while BUSY = 1, and DOUT and the reserved offsets ignore it (R53). -/
def Obligations.HostWritesFollowTheRegisterMap : Prop :=
  ∀ (s : State) (off : Offset) (v : Word) (rest : List Event), off.toNat % 4 = 0 → off.toNat < 0x100 →
    off.toNat ≠ 0 →
    let o := off.toNat
    let t : State := { s with events := rest }
    step { s with events := .write off 4 v :: rest } = .next
      (if o = 0x004 then (if v.getLsbD 2 then { t with err := false, errcode := 0 } else t)
      else if 0x010 ≤ o ∧ o ≤ 0x02C then { t with key := s.key.setIfInBounds ((o - 0x010) / 4) v }
      else if 0x030 ≤ o ∧ o ≤ 0x03C then { t with din := s.din.setIfInBounds ((o - 0x030) / 4) v }
      else t)

/-- A host access that is not 32 bits wide or not at a multiple of 4 is the model fault UnsupportedAccess (R54, R280); so
is one beyond the window, by the model's own choice (log entry 4). -/
def Obligations.UndefinedAccessesFault : Prop :=
  ∀ (s : State) (off : Offset) (size : Nat) (v : Word) (rest : List Event),
    size ≠ 4 ∨ off.toNat % 4 ≠ 0 ∨ 0x100 ≤ off.toNat →
    step { s with events := .read off size :: rest } = .fault (.unsupportedAccess off size) ∧
      step { s with events := .write off size v :: rest } = .fault (.unsupportedAccess off size)

/-- Two reads in a row of one register that is not DOUT, or of any register while BUSY = 0, return the same value, and
neither changes the core (R55). -/
def Obligations.RepeatedReadsAgree : Prop :=
  ∀ (s t u : State) (off : Offset) (size : Nat) (rest : List Event),
    s.busy = false ∨ off.toNat < 0x040 ∨ 0x050 ≤ off.toNat →
    s.events = .read off size :: .read off size :: rest → step s = .next t → step t = .next u →
    u.rdata = t.rdata ∧ u.toArch = s.toArch

/-! ### Steps, reset and invariants -/

/-- A CTRL write on a core that is not busy, of a word that decodes, is one step of the command it spells (R100, R101). -/
def Obligations.StepRunsTheCommandWritten : Prop :=
  ∀ (s : State) (v : Word) (i : Instr) (rest : List Event), s.busy = false → decode v = .ok i →
    step { s with events := .write 0x000 4 v :: rest } = exec i { s with events := rest }

/-- The engine's turn is one step of the pending command, whether it is scheduled or nothing else is; with nothing pending
it does nothing (R104). That an empty schedule gives the engine the turn is the model's choice (log entry 2). -/
def Obligations.StepRunsThePendingCommand : Prop :=
  ∀ (s : State) (rest : List Event),
    (∀ p i, s.pend = some p → decode p.word = .ok i →
      step { s with events := .engine :: rest } = exec i { s with events := rest } ∧
        step { s with events := [] } = exec i { s with events := [] }) ∧
    (s.pend = none → step { s with events := .engine :: rest } = .next { s with events := rest } ∧
      step { s with events := [] } = .next { s with events := [] })

/-- Reset gives every piece of the core's state its value of R41 from any state, and the model starts with those values;
STATUS then reads 0 (R41, R300). -/
def Obligations.ResetSetsEveryRegister : Prop :=
  ∀ (s : State) (rest : List Event), ∃ t, step { s with events := .reset :: rest } = .next t ∧
    t.toArch = State.reset.toArch ∧ t.key = .replicate 8 0 ∧ t.din = .replicate 4 0 ∧ t.dout = .replicate 4 0 ∧
    t.busy = false ∧ t.done = false ∧ t.err = false ∧ t.errcode = 0 ∧ t.aes_kv = false ∧ t.des_kv = false ∧
    t.aes_ks = 0 ∧ t.rk = .replicate 60 none ∧ t.sk = .replicate 16 none ∧ t.pend = none ∧
    statusWord t.toArch = 0x00000000

/-- The state right after reset satisfies the invariant of the core's record. -/
def Obligations.ResetStateSatisfiesTheInvariant : Prop := State.reset.Inv

/-- Every step keeps the invariant: BUSY is 1 exactly when a command is pending, BUSY and DONE are never both 1, ERRCODE is
0 exactly when ERR is 0 and at most 6, AES_KSIZE is never 3, each KV flag says exactly what its store holds, and a pending
command is one that acceptance made (R25, R29, R32, R34, R36). -/
def Obligations.StepKeepsTheInvariant : Prop :=
  ∀ s t : State, s.Inv → step s = .next t → t.Inv

/-- From a state of the invariant a step never refuses, and stops only on a host access the spec does not define: no
accepted command can fail (R102, R270, R280). -/
def Obligations.OnlyUndefinedAccessesStopTheCore : Prop :=
  ∀ s : State, s.Inv →
    s.Safe ∨ ∃ off size, s.unsupportedNext off size ∧ step s = .fault (.unsupportedAccess off size)

/-- Whatever defined accesses and resets are scheduled, once they have been taken one more step leaves nothing pending; and a
command that is pending completes within that run unless a reset is scheduled: some step of it is the completion of that
very record (R8, R104, R107, R110). That the engine has the turn once the schedule is empty is the model's choice (log
entry 2). -/
def Obligations.PendingCommandCompletesAfterTheSchedule : Prop :=
  ∀ s : State, s.Inv →
    (∀ e ∈ s.events, (∀ off size, e = .read off size → supported off size = true) ∧
      ∀ off size v, e = .write off size v → supported off size = true) →
    (∃ t, core.run (s.events.length + 1) s = .next t ∧ t.pend = none ∧ t.busy = false ∧ t.events = []) ∧
    ∀ p, s.pend = some p → .reset ∉ s.events →
      ∃ k u t i, k ≤ s.events.length ∧ core.run k s = .next u ∧ u.pend = some p ∧ decode p.word = .ok i ∧
        step u = .next t ∧ exec i { u with events := u.events.tail } = .next t ∧ t.pend = none ∧ t.busy = false ∧
        t.done = true

/-- AES_ENC encrypts under the key that was in KEY when the last AES_KEYEXP was accepted, whatever KEY, DIN and the rest of
the state hold when it completes (R38, R306). -/
def Obligations.AesEncryptsUnderTheKeyLastExpanded : Prop :=
  ∀ (s t s' : State) (p p' : Pending) (k : BitVec 2), s.pend = some p → p.ksize = k → k ≠ 3 →
    exec (.aesKeyexp k) s = .next t → s'.rk = t.rk → s'.aes_ks = t.aes_ks → s'.pend = some p' →
    let nk := 4 + 2 * k.toNat
    let out := cipher (loaded p'.din) (nk + 6) (keyExpansion (snapshotKey p k) nk (nk + 6))
    exec .aesEnc s' = .next (completed { s' with dout := stored out })

/-- DES_ENC encrypts under the key that was in KEY0 ‖ KEY1 when the last DES_KEYSCHED was accepted (R38, R306). -/
def Obligations.DesEncryptsUnderTheKeyLastScheduled : Prop :=
  ∀ (s t s' : State) (p p' : Pending), s.pend = some p → exec .desKeysched s = .next t → s'.sk = t.sk →
    s'.pend = some p' →
    let k := desKeySchedule (bitseq (p.key[0] ++ p.key[1]))
    let c := BitVec.ofNat 64 (val (desEncrypt (bitseq (p'.din[0] ++ p'.din[1])) k))
    exec .desEnc s' = .next (completed { s' with dout := #v[c.extractLsb' 32 32, c.extractLsb' 0 32, 0, 0] })
end

