-- ==== Sys2Proof/Laws/State.lean ====
section
/-! SUPPORT. One lemma per field per update of the state, each by `rfl`, so that no proof unfolds a record update. -/

namespace Sys2Proof.Machine

@[simp] theorem clearErr_key (s : State) : (clearErr s).key = s.key := rfl
@[simp] theorem clearErr_din (s : State) : (clearErr s).din = s.din := rfl
@[simp] theorem clearErr_dout (s : State) : (clearErr s).dout = s.dout := rfl
@[simp] theorem clearErr_busy (s : State) : (clearErr s).busy = s.busy := rfl
@[simp] theorem clearErr_done (s : State) : (clearErr s).done = s.done := rfl
@[simp] theorem clearErr_err (s : State) : (clearErr s).err = false := rfl
@[simp] theorem clearErr_errcode (s : State) : (clearErr s).errcode = 0 := rfl
@[simp] theorem clearErr_aes_kv (s : State) : (clearErr s).aes_kv = s.aes_kv := rfl
@[simp] theorem clearErr_aes_ks (s : State) : (clearErr s).aes_ks = s.aes_ks := rfl
@[simp] theorem clearErr_des_kv (s : State) : (clearErr s).des_kv = s.des_kv := rfl
@[simp] theorem clearErr_rk (s : State) : (clearErr s).rk = s.rk := rfl
@[simp] theorem clearErr_sk (s : State) : (clearErr s).sk = s.sk := rfl
@[simp] theorem clearErr_pend (s : State) : (clearErr s).pend = s.pend := rfl
@[simp] theorem clearErr_events (s : State) : (clearErr s).events = s.events := rfl
@[simp] theorem clearErr_rdata (s : State) : (clearErr s).rdata = s.rdata := rfl
@[simp] theorem clearErr_draws (s : State) : (clearErr s).draws = s.draws := rfl

@[simp] theorem reject_key (code : ErrCode) (s : State) : (reject code s).key = s.key := rfl
@[simp] theorem reject_din (code : ErrCode) (s : State) : (reject code s).din = s.din := rfl
@[simp] theorem reject_dout (code : ErrCode) (s : State) : (reject code s).dout = s.dout := rfl
@[simp] theorem reject_busy (code : ErrCode) (s : State) : (reject code s).busy = s.busy := rfl
@[simp] theorem reject_done (code : ErrCode) (s : State) : (reject code s).done = if code = .busy then s.done else false := rfl
@[simp] theorem reject_err (code : ErrCode) (s : State) : (reject code s).err = true := rfl
@[simp] theorem reject_errcode (code : ErrCode) (s : State) : (reject code s).errcode = code.code := rfl
@[simp] theorem reject_aes_kv (code : ErrCode) (s : State) : (reject code s).aes_kv = s.aes_kv := rfl
@[simp] theorem reject_aes_ks (code : ErrCode) (s : State) : (reject code s).aes_ks = s.aes_ks := rfl
@[simp] theorem reject_des_kv (code : ErrCode) (s : State) : (reject code s).des_kv = s.des_kv := rfl
@[simp] theorem reject_rk (code : ErrCode) (s : State) : (reject code s).rk = s.rk := rfl
@[simp] theorem reject_sk (code : ErrCode) (s : State) : (reject code s).sk = s.sk := rfl
@[simp] theorem reject_pend (code : ErrCode) (s : State) : (reject code s).pend = s.pend := rfl
@[simp] theorem reject_events (code : ErrCode) (s : State) : (reject code s).events = s.events := rfl
@[simp] theorem reject_rdata (code : ErrCode) (s : State) : (reject code s).rdata = s.rdata := rfl
@[simp] theorem reject_draws (code : ErrCode) (s : State) : (reject code s).draws = s.draws := rfl

@[simp] theorem accept_key (i : Instr) (s : State) : (accept i s).key = s.key := rfl
@[simp] theorem accept_din (i : Instr) (s : State) : (accept i s).din = s.din := rfl
@[simp] theorem accept_dout (i : Instr) (s : State) : (accept i s).dout = s.dout := rfl
@[simp] theorem accept_busy (i : Instr) (s : State) : (accept i s).busy = true := rfl
@[simp] theorem accept_done (i : Instr) (s : State) : (accept i s).done = false := rfl
@[simp] theorem accept_err (i : Instr) (s : State) : (accept i s).err = false := rfl
@[simp] theorem accept_errcode (i : Instr) (s : State) : (accept i s).errcode = 0 := rfl
@[simp] theorem accept_aes_kv (i : Instr) (s : State) : (accept i s).aes_kv = s.aes_kv := rfl
@[simp] theorem accept_aes_ks (i : Instr) (s : State) : (accept i s).aes_ks = s.aes_ks := rfl
@[simp] theorem accept_des_kv (i : Instr) (s : State) : (accept i s).des_kv = s.des_kv := rfl
@[simp] theorem accept_rk (i : Instr) (s : State) : (accept i s).rk = s.rk := rfl
@[simp] theorem accept_sk (i : Instr) (s : State) : (accept i s).sk = s.sk := rfl
@[simp] theorem accept_pend (i : Instr) (s : State) : (accept i s).pend = some (snapshot i s) := rfl
@[simp] theorem accept_events (i : Instr) (s : State) : (accept i s).events = s.events := rfl
@[simp] theorem accept_rdata (i : Instr) (s : State) : (accept i s).rdata = s.rdata := rfl
@[simp] theorem accept_draws (i : Instr) (s : State) : (accept i s).draws = s.draws := rfl

@[simp] theorem retire_key (s : State) : (retire s).key = s.key := rfl
@[simp] theorem retire_din (s : State) : (retire s).din = s.din := rfl
@[simp] theorem retire_dout (s : State) : (retire s).dout = s.dout := rfl
@[simp] theorem retire_busy (s : State) : (retire s).busy = false := rfl
@[simp] theorem retire_done (s : State) : (retire s).done = true := rfl
@[simp] theorem retire_err (s : State) : (retire s).err = s.err := rfl
@[simp] theorem retire_errcode (s : State) : (retire s).errcode = s.errcode := rfl
@[simp] theorem retire_aes_kv (s : State) : (retire s).aes_kv = s.aes_kv := rfl
@[simp] theorem retire_aes_ks (s : State) : (retire s).aes_ks = s.aes_ks := rfl
@[simp] theorem retire_des_kv (s : State) : (retire s).des_kv = s.des_kv := rfl
@[simp] theorem retire_rk (s : State) : (retire s).rk = s.rk := rfl
@[simp] theorem retire_sk (s : State) : (retire s).sk = s.sk := rfl
@[simp] theorem retire_pend (s : State) : (retire s).pend = none := rfl
@[simp] theorem retire_events (s : State) : (retire s).events = s.events := rfl
@[simp] theorem retire_rdata (s : State) : (retire s).rdata = s.rdata := rfl
@[simp] theorem retire_draws (s : State) : (retire s).draws = s.draws := rfl

@[simp] theorem writeDout_key (d : Vector Word 4) (s : State) : (writeDout d s).key = s.key := rfl
@[simp] theorem writeDout_din (d : Vector Word 4) (s : State) : (writeDout d s).din = s.din := rfl
@[simp] theorem writeDout_dout (d : Vector Word 4) (s : State) : (writeDout d s).dout = d := rfl
@[simp] theorem writeDout_busy (d : Vector Word 4) (s : State) : (writeDout d s).busy = s.busy := rfl
@[simp] theorem writeDout_done (d : Vector Word 4) (s : State) : (writeDout d s).done = s.done := rfl
@[simp] theorem writeDout_err (d : Vector Word 4) (s : State) : (writeDout d s).err = s.err := rfl
@[simp] theorem writeDout_errcode (d : Vector Word 4) (s : State) : (writeDout d s).errcode = s.errcode := rfl
@[simp] theorem writeDout_aes_kv (d : Vector Word 4) (s : State) : (writeDout d s).aes_kv = s.aes_kv := rfl
@[simp] theorem writeDout_aes_ks (d : Vector Word 4) (s : State) : (writeDout d s).aes_ks = s.aes_ks := rfl
@[simp] theorem writeDout_des_kv (d : Vector Word 4) (s : State) : (writeDout d s).des_kv = s.des_kv := rfl
@[simp] theorem writeDout_rk (d : Vector Word 4) (s : State) : (writeDout d s).rk = s.rk := rfl
@[simp] theorem writeDout_sk (d : Vector Word 4) (s : State) : (writeDout d s).sk = s.sk := rfl
@[simp] theorem writeDout_pend (d : Vector Word 4) (s : State) : (writeDout d s).pend = s.pend := rfl
@[simp] theorem writeDout_events (d : Vector Word 4) (s : State) : (writeDout d s).events = s.events := rfl
@[simp] theorem writeDout_rdata (d : Vector Word 4) (s : State) : (writeDout d s).rdata = s.rdata := rfl
@[simp] theorem writeDout_draws (d : Vector Word 4) (s : State) : (writeDout d s).draws = s.draws := rfl

@[simp] theorem resetCore_toArch (s : State) : (resetCore s).toArch = Arch.reset := rfl
@[simp] theorem resetCore_events (s : State) : (resetCore s).events = s.events := rfl
@[simp] theorem resetCore_rdata (s : State) : (resetCore s).rdata = s.rdata := rfl
@[simp] theorem resetCore_draws (s : State) : (resetCore s).draws = s.draws := rfl

@[simp] theorem snapshot_op (i : Instr) (s : State) : (snapshot i s).op = i.op := rfl
@[simp] theorem snapshot_ksize (i : Instr) (s : State) : (snapshot i s).ksize = i.ksize := rfl
@[simp] theorem snapshot_tsel (i : Instr) (s : State) : (snapshot i s).tsel = i.tsel := rfl
@[simp] theorem snapshot_key (i : Instr) (s : State) : (snapshot i s).key = s.key := rfl
@[simp] theorem snapshot_din (i : Instr) (s : State) : (snapshot i s).din = s.din := rfl
@[simp] theorem snapshot_word (i : Instr) (s : State) : (snapshot i s).word = encode i := rfl

end Sys2Proof.Machine
end

