-- ==== Sys2Proof/Laws/Ops.lean ====
section
/-! SUPPORT. For each shared operation, once, everything it can do: what it answers in each case, and what holds if it
answers a next state. Proofs cite these and do not unfold the operation. -/

namespace Sys2Proof.Machine

/-! ### The two steps of a command -/

/-- A command submitted to an idle core is rejected by its own check or accepted. -/
theorem runCommand_idle {i : Instr} {check : State → Option ErrCode} {effect : Pending → State → Result} {s : State}
    (h : s.pend = none) :
    runCommand i check effect s = .next (decided i (check s) s) := by
  simp [runCommand, h]

/-- A pending command completes with its effect and the tail of `complete()`. -/
theorem runCommand_pending {i : Instr} {check : State → Option ErrCode} {effect : Pending → State → Result} {s t : State}
    {p : Pending} (h : s.pend = some p) (he : effect p s = .next t) :
    runCommand i check effect s = .next (retire t) := by
  simp [runCommand, h, he]

/-- A completion faults where its effect does. -/
theorem runCommand_fault {i : Instr} {check : State → Option ErrCode} {effect : Pending → State → Result} {s : State}
    {p : Pending} {r : Fault} (h : s.pend = some p) (he : effect p s = .fault r) :
    runCommand i check effect s = .fault r := by
  simp [runCommand, h, he]

/-- A completion refuses where its effect does. -/
theorem runCommand_refused {i : Instr} {check : State → Option ErrCode} {effect : Pending → State → Result} {s : State}
    {p : Pending} {r : Refusal} (h : s.pend = some p) (he : effect p s = .refused r) :
    runCommand i check effect s = .refused r := by
  simp [runCommand, h, he]

/-- All a command can do when it answers a next state: rejection, acceptance or completion. -/
theorem runCommand_next {i : Instr} {check : State → Option ErrCode} {effect : Pending → State → Result} {s t : State}
    (h : runCommand i check effect s = .next t) :
    (s.pend = none ∧ ∃ code, check s = some code ∧ t = reject code s) ∨
      (s.pend = none ∧ check s = none ∧ t = accept i s) ∨
      ∃ p u, s.pend = some p ∧ effect p s = .next u ∧ t = retire u := by
  cases hp : s.pend with
  | none =>
    rw [runCommand_idle hp] at h
    cases hc : check s <;> simp_all [decided]
  | some p =>
    cases he : effect p s with
    | next u =>
      rw [runCommand_pending hp he] at h
      exact .inr (.inr ⟨p, u, rfl, he, by simpa using h.symm⟩)
    | fault r => simp [runCommand_fault hp he] at h
    | refused r => simp [runCommand_refused hp he] at h

/-! ### The register window -/

/-- A read leaves the core as it was. -/
theorem readReg_toArch (r : Reg) (s : State) : (readReg r s).toArch = s.toArch := by
  cases r <;> simp only [readReg]
  split <;> rfl

/-- A read consumes no scheduled turn. -/
theorem readReg_events (r : Reg) (s : State) : (readReg r s).events = s.events := by
  cases r <;> simp only [readReg]
  split <;> rfl

/-- All a register write can do: nothing, clear the error, or set one KEY or DIN word. -/
theorem writeReg_cases (r : Reg) (v : Word) (s : State) :
    writeReg r v s = s ∨ writeReg r v s = clearErr s ∨
      (∃ i : Fin 8, r = .key i ∧ writeReg r v s = { s with key := s.key.set i v }) ∨
      ∃ i : Fin 4, r = .din i ∧ writeReg r v s = { s with din := s.din.set i v } := by
  cases r with
  | status =>
    simp only [writeReg]
    split
    · exact .inr (.inl rfl)
    · exact .inl rfl
  | key i => exact .inr (.inr (.inl ⟨i, rfl, rfl⟩))
  | din i => exact .inr (.inr (.inr ⟨i, rfl, rfl⟩))
  | ctrl => exact .inl rfl
  | dout i => exact .inl rfl
  | reserved => exact .inl rfl

/-- Every named register's offset is a defined access, and the window's map leads back to the register. -/
theorem Reg.at_offset (r : Reg) : Reg.at r.offset = r ∧ supported r.offset 4 = true := by
  cases r with
  | key i => revert i; decide
  | din i => revert i; decide
  | dout i => revert i; decide
  | ctrl => decide
  | status => decide
  | reserved => decide

/-- An access the spec does not define faults. -/
theorem hostRead_unsupported {off : Offset} {size : Nat} {s : State} (h : supported off size = false) :
    hostRead off size s = .fault (.unsupportedAccess off size) := by
  simp [hostRead, h]

/-- A defined read is the register's. -/
theorem hostRead_supported {off : Offset} {size : Nat} {s : State} (h : supported off size = true) :
    hostRead off size s = .next (readReg (.at off) s) := by
  simp [hostRead, h]

/-- An access the spec does not define faults. -/
theorem hostWrite_unsupported {off : Offset} {size : Nat} {v : Word} {s : State} (h : supported off size = false) :
    hostWrite off size v s = .fault (.unsupportedAccess off size) := by
  simp [hostWrite, h]

/-- A defined write of CTRL is a submission. -/
theorem hostWrite_ctrl {off : Offset} {size : Nat} {v : Word} {s : State} (h : supported off size = true)
    (hr : Reg.at off = .ctrl) : hostWrite off size v s = submit v s := by
  simp [hostWrite, h, hr]

/-- A defined write of any other register is the register's. -/
theorem hostWrite_other {off : Offset} {size : Nat} {v : Word} {s : State} (h : supported off size = true)
    (hr : Reg.at off ≠ .ctrl) : hostWrite off size v s = .next (writeReg (.at off) v s) := by
  simp [hostWrite, h, hr]

/-! ### Submission and the engine's turn -/

/-- A write of CTRL while BUSY = 1 is rejected with BUSY. -/
theorem submit_busy {v : Word} {s : State} (h : s.busy = true) : submit v s = .next (reject .busy s) := by
  simp [submit, precheck, h]

/-- A word that is no command is rejected with ILLEGAL_CMD by a core that is not busy. -/
theorem submit_illegal {v : Word} {s : State} {e : DecodeError} (h : s.busy = false) (hd : decode v = .error e) :
    submit v s = .next (reject .illegalCmd s) := by
  simp [submit, precheck, h, hd]

/-- A command's word is submitted as the command by a core that is not busy. -/
theorem submit_command {v : Word} {s : State} {i : Instr} (h : s.busy = false) (hd : decode v = .ok i) :
    submit v s = exec i s := by
  simp [submit, precheck, h, hd]

/-- With nothing pending the engine does nothing. -/
theorem engineTurn_idle {s : State} (h : s.pend = none) : engineTurn s = .next s := by
  simp [engineTurn, h]

/-- The engine completes the pending command. -/
theorem engineTurn_command {s : State} {p : Pending} {i : Instr} (h : s.pend = some p) (hd : decode p.word = .ok i) :
    engineTurn s = exec i s := by
  simp [engineTurn, h, hd]

/-- All a step can do when it answers a next state, turn by turn. -/
theorem step_next {s t : State} (h : step s = .next t) :
    (s.events = [] ∧ engineTurn s = .next t) ∨
      ∃ e rest, s.events = e :: rest ∧ turn e { s with events := rest } = .next t := by
  unfold step takeTurn at h
  cases he : s.events with
  | nil => exact .inl ⟨rfl, by simpa [he] using h⟩
  | cons e rest => exact .inr ⟨e, rest, rfl, by simpa [he] using h⟩

/-- A step with a scheduled turn takes it. -/
theorem step_cons (s : State) (e : Event) (rest : List Event) :
    step { s with events := e :: rest } = turn e { s with events := rest } := rfl

/-- A step with nothing scheduled is the engine's turn. -/
theorem step_nil (s : State) : step { s with events := [] } = engineTurn { s with events := [] } := rfl

/-- Placing a table word makes the next step the submission of that word to an idle core. -/
theorem step_withFetchWord (s : State) (nbits w : Nat) :
    step (s.withFetchWord nbits w) = submit (tableWord nbits w) { s with busy := false, pend := none } := by
  show turn (.write 0x000 Config.accessBytes (tableWord nbits w)) { s with busy := false, pend := none } = _
  exact hostWrite_ctrl (by decide) (by decide)

end Sys2Proof.Machine
end

