-- ==== Sys2Proof/Laws/Exec.lean ====
section
/-! SUPPORT. Every command in one shape: its own check and its effect. `exec_eq_runCommand` is what proofs about all
commands cite. -/

namespace Sys2Proof.Machine

/-- The command's own check at submission (spec R101): the code it is rejected with, if any. -/
def commandCheck (i : Instr) (s : State) : Option ErrCode :=
  match i with
  | .aesKeyexp k => if k = 3 then some .invalidKeySize else none
  | .aesEnc => if s.aes_kv then none else some .noAesSchedule
  | .desEnc => if s.des_kv then none else some .noDesSchedule
  | .desPerm t => if t < 6 then none else some .invalidTable
  | .nop => none
  | .desKeysched => none
  | .gfMul => none
  | .aesSubword => none
  | .desSbox => none
  | .aesMixcol => none
  | .desF => none

/-- The command's own effect at completion (spec R104), before the tail of `complete()`. -/
def commandEffect (i : Instr) (p : Pending) (s : State) : Result :=
  match i with
  | .nop => .next s
  | .aesKeyexp _ => keyexpEffect p s
  | .aesEnc => aesEncEffect p s
  | .desKeysched => .next { s with sk := skOf (desSchedule p), des_kv := true }
  | .desEnc => desEncEffect p s
  | .gfMul => .next (writeDout (result32 (gfMulWord p.din)) s)
  | .aesSubword => .next (writeDout (result32 (subwordWord p.din)) s)
  | .desPerm _ => permEffect p s
  | .desSbox => .next (writeDout (result32 (sboxWord p.din)) s)
  | .aesMixcol => .next (writeDout (result32 (mixcolWord p.din)) s)
  | .desF => .next (writeDout (result32 (desFWord p.din)) s)

/-- Every command goes through the same two steps with its own check and effect. -/
theorem exec_eq_runCommand (i : Instr) (s : State) :
    exec i s = runCommand i (commandCheck i) (commandEffect i) s := by
  cases i <;> rfl

/-- A command submitted to an idle core is rejected by its own check or accepted. -/
theorem exec_idle (i : Instr) {s : State} (h : s.pend = none) :
    exec i s = .next (decided i (commandCheck i s) s) := by
  rw [exec_eq_runCommand, runCommand_idle h]

/-- A pending command completes with its effect and the tail of `complete()`. -/
theorem exec_pending (i : Instr) {s t : State} {p : Pending} (h : s.pend = some p) (he : commandEffect i p s = .next t) :
    exec i s = .next (retire t) := by
  rw [exec_eq_runCommand, runCommand_pending h he]

/-- A completion faults where its effect does. -/
theorem exec_fault (i : Instr) {s : State} {p : Pending} {r : Fault} (h : s.pend = some p)
    (he : commandEffect i p s = .fault r) : exec i s = .fault r := by
  rw [exec_eq_runCommand, runCommand_fault h he]

/-- A completion refuses where its effect does. -/
theorem exec_refused (i : Instr) {s : State} {p : Pending} {r : Refusal} (h : s.pend = some p)
    (he : commandEffect i p s = .refused r) : exec i s = .refused r := by
  rw [exec_eq_runCommand, runCommand_refused h he]

/-- All `exec` can do when it answers a next state: a rejection, an acceptance or a completion. -/
theorem exec_next {i : Instr} {s t : State} (h : exec i s = .next t) :
    (s.pend = none ∧ ∃ code, commandCheck i s = some code ∧ t = reject code s) ∨
      (s.pend = none ∧ commandCheck i s = none ∧ t = accept i s) ∨
      ∃ p u, s.pend = some p ∧ commandEffect i p s = .next u ∧ t = retire u := by
  rw [exec_eq_runCommand] at h
  exact runCommand_next h

/-- All a completion's effect can be when it answers a next state: nothing, DOUT, the AES store or the DES store. -/
theorem commandEffect_next {i : Instr} {p : Pending} {s u : State} (h : commandEffect i p s = .next u) :
    (i = .nop ∧ u = s) ∨
      (∃ d, u = writeDout d s ∧ ∀ k, i ≠ .aesKeyexp k ∧ i ≠ .nop ∧ i ≠ .desKeysched) ∨
      ((∃ k, i = .aesKeyexp k) ∧ p.ksize ≠ 3 ∧
        u = { s with rk := rkOf (aesSchedule p), aes_kv := true, aes_ks := p.ksize }) ∨
      (i = .desKeysched ∧ u = { s with sk := skOf (desSchedule p), des_kv := true }) := by
  cases i with
  | nop => exact .inl ⟨rfl, by simpa [commandEffect] using h.symm⟩
  | aesKeyexp k =>
    simp only [commandEffect, keyexpEffect] at h
    split at h
    · cases h
    · next hk => exact .inr (.inr (.inl ⟨⟨k, rfl⟩, hk, by simpa using h.symm⟩))
  | desKeysched => exact .inr (.inr (.inr ⟨rfl, by simpa [commandEffect] using h.symm⟩))
  | aesEnc =>
    simp only [commandEffect, aesEncEffect] at h
    split at h
    · cases h
    · exact .inr (.inl ⟨_, by simpa using h.symm, by simp⟩)
  | desEnc =>
    simp only [commandEffect, desEncEffect] at h
    split at h
    · cases h
    · exact .inr (.inl ⟨_, by simpa using h.symm, by simp⟩)
  | desPerm t =>
    simp only [commandEffect, permEffect] at h
    split at h
    · cases h
    · exact .inr (.inl ⟨_, by simpa using h.symm, by simp⟩)
  | gfMul => exact .inr (.inl ⟨_, by simpa [commandEffect] using h.symm, by simp⟩)
  | aesSubword => exact .inr (.inl ⟨_, by simpa [commandEffect] using h.symm, by simp⟩)
  | desSbox => exact .inr (.inl ⟨_, by simpa [commandEffect] using h.symm, by simp⟩)
  | aesMixcol => exact .inr (.inl ⟨_, by simpa [commandEffect] using h.symm, by simp⟩)
  | desF => exact .inr (.inl ⟨_, by simpa [commandEffect] using h.symm, by simp⟩)

end Sys2Proof.Machine
end

