-- ==== Sys2Proof/Laws/Leaf.lean ====
section
/-! SUPPORT. The lengths of the leaf units' and the engines' results, and what the store helpers answer. -/

namespace Sys2Proof.Machine

@[simp] theorem bitseq_length {n : Nat} (v : BitVec n) : (bitseq v).length = n := by simp [bitseq]

@[simp] theorem permute_length (b : Bits) (table : List Nat) : (permute b table).length = table.length := by
  simp [permute]

@[simp] theorem rotl_length {α : Type} (b : List α) (s : Nat) : (rotl b s).length = b.length := by
  simp only [rotl, List.length_append, List.length_drop, List.length_take]
  omega

@[simp] theorem xorBits_length (a b : Bits) : (xorBits a b).length = min a.length b.length := by simp [xorBits]

/-- Bit `i` of a packed word, byte by byte. -/
theorem pack_bit (w : AesWord) (i : Nat) : (pack w).getLsbD i =
    if i < 8 then w[3].getLsbD i else if i < 16 then w[2].getLsbD (i - 8)
    else if i < 24 then w[1].getLsbD (i - 16) else w[0].getLsbD (i - 24) := by
  simp only [pack, BitVec.getLsbD_setWidth, BitVec.getLsbD_append, Nat.sub_sub]
  by_cases h : i < 32
  · simp only [h, decide_true, Bool.true_and]
    split_ifs <;> first | rfl | omega
  · have h8 : ¬i < 8 := by omega
    have h16 : ¬i < 16 := by omega
    have h24 : ¬i < 24 := by omega
    simp only [h, h8, h16, h24, decide_false, Bool.false_and, if_false]
    exact (BitVec.getLsbD_of_ge w[0] (i - 24) (by omega)).symm

@[simp] theorem sDes_length (k : Nat) (g : Bits) : (sDes k g).length = 4 := by simp [sDes]

@[simp] theorem sboxLayer_length (x : Bits) : (sboxLayer x).length = 32 := by
  simp [sboxLayer, List.length_flatMap]

@[simp] theorem desF_length (r k : Bits) : (desF r k).length = 32 := by
  simp [desF, Tables.p]

@[simp] theorem desSubkeys_length (amounts : List Nat) (c d : Bits) :
    (desSubkeys amounts c d).length = amounts.length := by
  induction amounts generalizing c d with
  | nil => rfl
  | cons s rest ih => simp [desSubkeys, ih]

@[simp] theorem desKeySchedule_length (k : Bits) : (desKeySchedule k).length = 16 := by
  simp [desKeySchedule, Tables.shifts]

@[simp] theorem extendSchedule_length (nk count : Nat) (w : List AesWord) :
    (extendSchedule nk count w).length = w.length + count := by
  induction count generalizing w with
  | zero => rfl
  | succ n ih => simp only [extendSchedule, ih, List.length_append, List.length_singleton]; omega

/-- A schedule has `4·(nr+1)` words when the key is no longer than that. -/
theorem keyExpansion_length (key : List AesWord) (nk nr : Nat) (hk : key.length = nk) (hn : nk ≤ 4 * (nr + 1)) :
    (keyExpansion key nk nr).length = 4 * (nr + 1) := by
  simp only [keyExpansion, extendSchedule_length, hk]
  omega

/-- A run of entries that all hold values is read back as those values. -/
theorem storeValues_some {α : Type} (first : Nat) (vs : List α) : storeValues first (vs.map some) = .ok vs := by
  induction vs generalizing first with
  | nil => rfl
  | cons v rest ih => simp [storeValues, ih]

/-- A read of a run stops exactly at its first `NoValue` entry. -/
theorem storeValues_error {α : Type} (first : Nat) (l : List (Option α)) (e : Nat) :
    storeValues first l = .error e ↔
      ∃ n, e = first + n ∧ l[n]? = some none ∧ ∀ m < n, ∃ v, l[m]? = some (some v) := by
  induction l generalizing first with
  | nil => simp [storeValues]
  | cons a l ih =>
    cases a with
    | none =>
      refine ⟨fun h => ⟨0, by simpa [storeValues, eq_comm] using h, rfl, by omega⟩, ?_⟩
      rintro ⟨n, rfl, hn, hm⟩
      cases n with
      | zero => rfl
      | succ n => obtain ⟨v, hv⟩ := hm 0 (by omega); simp at hv
    | some v =>
      have step : storeValues first (some v :: l) = .error e ↔ storeValues (first + 1) l = .error e := by
        simp only [storeValues]
        split <;> simp_all
      rw [step, ih]
      constructor
      · rintro ⟨n, rfl, hn, hm⟩
        refine ⟨n + 1, by omega, by simpa using hn, fun m hlt => ?_⟩
        cases m with
        | zero => exact ⟨v, rfl⟩
        | succ m => simpa using hm m (by omega)
      · rintro ⟨n, rfl, hn, hm⟩
        cases n with
        | zero => simp at hn
        | succ n => exact ⟨n, by omega, by simpa using hn, fun m hlt => by simpa using hm (m + 1) (by omega)⟩

/-- A stored schedule word is there exactly within the schedule. -/
theorem rkOf_get (w : List Word) (i : Fin 60) : (rkOf w)[i] = w[i.val]? := by simp [rkOf]

/-- A stored subkey is there exactly within the list. -/
theorem skOf_get (k : List (BitVec 48)) (i : Fin 16) : (skOf k)[i] = k[i.val]? := by simp [skOf]

end Sys2Proof.Machine
end

