-- ==== Sys2Proof/Laws/PerInstr.lean ====
section
/-! SUPPORT. What holds of every command as syntax, one lemma per constructor: its word carries exactly its fields and is
well-formed (spec R71, R75). -/

namespace Sys2Proof.Laws.Fields

/-- The command's word carries its opcode, KSIZE and TSEL, and every reserved bit of it is 0. -/
def Statement (i : Instr) : Prop :=
  opField (encode i) = i.op ∧ ksizeField (encode i) = i.ksize ∧ tselField (encode i) = i.tsel ∧
    wellformed (encode i) = true

theorem nop : Statement .nop := by unfold Statement; decide
theorem aesKeyexp (ksize : BitVec 2) : Statement (.aesKeyexp ksize) := by revert ksize; unfold Statement; decide
theorem aesEnc : Statement .aesEnc := by unfold Statement; decide
theorem desKeysched : Statement .desKeysched := by unfold Statement; decide
theorem desEnc : Statement .desEnc := by unfold Statement; decide
theorem gfMul : Statement .gfMul := by unfold Statement; decide
theorem aesSubword : Statement .aesSubword := by unfold Statement; decide
theorem desPerm (tsel : BitVec 3) : Statement (.desPerm tsel) := by revert tsel; unfold Statement; decide
theorem desSbox : Statement .desSbox := by unfold Statement; decide
theorem aesMixcol : Statement .aesMixcol := by unfold Statement; decide
theorem desF : Statement .desF := by unfold Statement; decide

end Sys2Proof.Laws.Fields
end

