-- ==== Sys2Proof/Machine/Script.lean ====
section
/-! DEFINITION. Host programs in the script syntax of spec R81-R83, run against the machine. The core sees only the reads,
the writes and the reset (R81, R113); position and labels belong to the host and stand outside `State` (R20). -/

namespace Sys2Proof.Machine

/-- One line of a host script (R81). -/
inductive ScriptOp where
  | wr (r : Reg) (v : Word)
  | rd (r : Reg)
  | label (name : String)
  /-- Read the register; if the bit is 1, continue at the label. -/
  | bit1 (r : Reg) (bit : Nat) (target : String)
  | reset
deriving DecidableEq, Repr

namespace Script

/-- `CMD <command>`: a write of its word to CTRL (R82). -/
def cmd (i : Instr) : List ScriptOp := [.wr .ctrl (encode i)]

/-- `WAIT`: poll until BUSY = 0; every `WAIT` of a program expands to the same label `w` (R82). -/
def wait : List ScriptOp := [.label "w", .bit1 .status 0 "w"]

/-- `CLRERR` (R82). -/
def clrErr : List ScriptOp := [.wr .status 0x00000004]

/-- `LDKEY a0, a1, ...`, at most eight values (R82). -/
def ldKey (values : List Word) : List ScriptOp :=
  (values.zip (List.finRange 8)).map fun vi => .wr (.key vi.2) vi.1

/-- `LDIN d0, d1, ...`, at most four values (R82). -/
def ldIn (values : List Word) : List ScriptOp :=
  (values.zip (List.finRange 4)).map fun vi => .wr (.din vi.2) vi.1

/-- `RDOUT` (R82). -/
def rdOut : List ScriptOp := (List.finRange 4).map fun i => .rd (.dout i)

/-- What the core sees of a line: `(W, off, data)`, `(R, off)`, the reset event, or nothing for a label (R83). -/
def event? : ScriptOp → Option Event
  | .wr r v => some (.write r.offset Config.accessBytes v)
  | .rd r => some (.read r.offset Config.accessBytes)
  | .label _ => none
  | .bit1 r _ _ => some (.read r.offset Config.accessBytes)
  | .reset => some .reset

/-- Where a `BIT1` at line `pos` continues for the label `target`. Of several labels of that name it is the last one before
the line, else the first one after it, so that each `WAIT` polls by itself; with none the program ends. DESIGN CHOICE, log
entry 14. -/
def labelLine (program : List ScriptOp) (pos : Nat) (target : String) : Nat :=
  match (program.take pos).reverse.findIdx? (· == .label target) with
  | some back => pos - 1 - back
  | none => program.findIdx (· == .label target)

/-- The line after a line has run: the label's if a `BIT1` found its bit set in the value read, else the next. -/
def nextLine (program : List ScriptOp) (pos : Nat) (op : ScriptOp) (read : Option Word) : Nat :=
  match op with
  | .bit1 _ bit target => if (read.getD 0).getLsbD bit then labelLine program pos target else pos + 1
  | _ => pos + 1

/-- A host at a line of its program, with the machine. -/
structure Run where
  pos : Nat
  machine : State
deriving DecidableEq, Repr

/-- The host runs its line; at the program's end it does nothing (R81). -/
def hostLine (program : List ScriptOp) (r : Run) : Host.Outcome Run Fault Refusal :=
  match program[r.pos]? with
  | none => .next r
  | some op =>
    match event? op with
    | none => .next ⟨r.pos + 1, r.machine⟩
    | some e =>
      match turn e r.machine with
      | .next t => .next ⟨nextLine program r.pos op t.rdata, t⟩
      | .fault f => .fault f
      | .refused f => .refused f

/-- The engine has its turn while the host stays at its line. -/
def engineLine (r : Run) : Host.Outcome Run Fault Refusal :=
  match engineTurn r.machine with
  | .next t => .next ⟨r.pos, t⟩
  | .fault f => .fault f
  | .refused f => .refused f

/-- A program under a schedule: `true` is the engine's turn, `false` the host's (R8). -/
def run (program : List ScriptOp) : List Bool → Run → Host.Outcome Run Fault Refusal
  | [], r => .next r
  | engine :: schedule, r =>
    match (if engine then engineLine r else hostLine program r) with
    | .next t => run program schedule t
    | .fault f => .fault f
    | .refused f => .refused f

/-- The latency of the pending command: by opcode, and for AES_KEYEXP and AES_ENC by key size (R107). -/
def pendingLatency (latency : BitVec 4 → BitVec 2 → Nat) (s : State) : Option Nat :=
  s.pend.map fun p => latency p.op (if p.op = 0x2 then s.aes_ks else p.ksize)

/-- Whether the host's next line is a host step: a read, a write or a reset (R7). A label is none (R81, R83), and neither is
a turn after the script's end. -/
def makesHostStep (program : List ScriptOp) (r : Run) : Bool := ((program[r.pos]?).bind event?).isSome

/-- The engine completes the pending command now: `LATENCY` host steps have followed its acceptance (R107), or the script
has ended and makes no more of them. That host steps are what is counted, and what happens at the script's end, is a
DESIGN CHOICE, log entry 13. -/
def engineDue (latency : BitVec 4 → BitVec 2 → Nat) (program : List ScriptOp) (waited : Nat) (r : Run) : Bool :=
  match pendingLatency latency r.machine with
  | none => false
  | some steps => decide (steps ≤ waited) || decide (program.length ≤ r.pos)

/-- The count of host steps since acceptance, after a line that began at `r`; 0 as long as nothing was pending. -/
def waitedAfter (program : List ScriptOp) (waited : Nat) (r : Run) : Nat :=
  if r.machine.pend.isNone then 0 else if makesHostStep program r then waited + 1 else waited

/-- `fuel` lines and completions of a program under the schedule a `LATENCY` fixes: a command completes when exactly
`LATENCY` host steps have followed its acceptance, or the script has ended (R107, R311). What counts as a host step is a
DESIGN CHOICE, log entry 13. -/
def runTimed (latency : BitVec 4 → BitVec 2 → Nat) (program : List ScriptOp) :
    Nat → Nat → Run → Host.Outcome Run Fault Refusal
  | 0, _, r => .next r
  | fuel + 1, waited, r =>
    match (if engineDue latency program waited r then engineLine r else hostLine program r) with
    | .next t => runTimed latency program fuel (waitedAfter program waited r) t
    | .fault f => .fault f
    | .refused f => .refused f

end Script

end Sys2Proof.Machine
end

