-- ==== Sys2Proof/Tests/Slice0.lean ====
section
/-! SUPPORT. The model's own tests, each expected value from the spec (its vector or rule is named), and for every
obligation with hypotheses a witness that they can be met together. -/

open Sys2Proof Sys2Proof.Machine Sys2Proof.Claims

namespace Sys2Proof.Tests

/-! ### Well-formedness and decoding -/

/-- R73: KSIZE = 3 is no key size. -/
theorem test_wf_refuses_ksize : (Instr.aesKeyexp 3).wf = false ∧ (Instr.aesKeyexp 2).wf = true := by decide

/-- R74: TSEL = 6 and 7 are no tables. -/
theorem test_wf_refuses_tsel :
    (Instr.desPerm 6).wf = false ∧ (Instr.desPerm 7).wf = false ∧ (Instr.desPerm 5).wf = true := by decide

/-- V35: the reserved opcodes, a reserved bit, KSIZE with AES_ENC, TSEL with GF_MUL spell no command. -/
theorem test_ill_formed_words :
    decode 0x0000000B = .error .reservedOpcode ∧ decode 0x0000000F = .error .reservedOpcode ∧
      decode 0x00000040 = .error .reservedBits ∧ decode 0x80000000 = .error .reservedBits ∧
      decode 0x00000012 = .error .reservedBits ∧ decode 0x00000105 = .error .reservedBits := by decide

/-- R71, R72: one word for every command, written out field by field: TSEL in bits 10:8, KSIZE in 5:4, OP in 3:0. -/
theorem test_decode_control : decode 0b00000000000000000000000000000000 = .ok .nop := by decide
theorem test_decode_aes :
    decode 0b00000000000000000000000000010001 = .ok (.aesKeyexp 1) ∧
      decode 0b00000000000000000000000000100001 = .ok (.aesKeyexp 2) ∧
      decode 0b00000000000000000000000000000010 = .ok .aesEnc := by decide
theorem test_decode_des :
    decode 0b00000000000000000000000000000011 = .ok .desKeysched ∧
      decode 0b00000000000000000000000000000100 = .ok .desEnc := by decide
theorem test_decode_diagnostic :
    decode 0b00000000000000000000000000000101 = .ok .gfMul ∧
      decode 0b00000000000000000000000000000110 = .ok .aesSubword ∧
      decode 0b00000000000000000000000100000111 = .ok (.desPerm 1) ∧
      decode 0b00000000000000000000010000000111 = .ok (.desPerm 4) ∧
      decode 0b00000000000000000000000000001000 = .ok .desSbox ∧
      decode 0b00000000000000000000000000001001 = .ok .aesMixcol ∧
      decode 0b00000000000000000000000000001010 = .ok .desF := by decide

/-- R82: `CMD AES_KEYEXP, KSIZE=2` and `CMD DES_PERM, TSEL=5`. -/
theorem test_encode : encode (.aesKeyexp 2) = 0x00000021 ∧ encode (.desPerm 5) = 0x00000507 := by decide

/-- The opcode table's first words decode to their rows' commands. -/
theorem test_decodeTableWord :
    decodeTableWord 32 0x00000000 = some .nop ∧ decodeTableWord 8 0x0A = some .desF ∧
      decodeTableWord 32 0x0000000B = none := by decide

/-! ### Small states -/

/-- A core with one command pending, with the given key and input in its snapshot. -/
def pending (i : Instr) (key : Vector Word 8) (din : Vector Word 4) (s : State) : State :=
  { s with busy := true, done := false, pend := some ⟨i.op, i.ksize, i.tsel, key, din⟩ }

/-- The state a result goes on with. -/
def after : Result → Option State
  | .next t => some t
  | .fault _ => none
  | .refused _ => none

/-- DOUT after a pending command completes. -/
def output (i : Instr) (key : Vector Word 8) (din : Vector Word 4) (s : State) : Option (Vector Word 4) :=
  (after (exec i (pending i key din s))).map fun t => t.dout

/-- STATUS after one turn. -/
def statusAfter (r : Result) : Option Word := (after r).map fun t => statusWord t.toArch

/-- A core with a CTRL write as its next turn. -/
def writing (v : Word) (s : State) : State := { s with events := [.write 0x000 4 v] }

def noKey : Vector Word 8 := .replicate 8 0

def noDin : Vector Word 4 := .replicate 4 0

/-- V3: the AES-128 schedule of the key of V1, as the spec prints it. -/
def v3 : List Word :=
  [0x2b7e1516, 0x28aed2a6, 0xabf71588, 0x09cf4f3c, 0xa0fafe17, 0x88542cb1, 0x23a33939, 0x2a6c7605] ++
  [0xf2c295f2, 0x7a96b943, 0x5935807a, 0x7359f67f, 0x3d80477d, 0x4716fe3e, 0x1e237e44, 0x6d7a883b] ++
  [0xef44a541, 0xa8525b7f, 0xb671253b, 0xdb0bad00, 0xd4d1c6f8, 0x7c839d87, 0xcaf2b8bc, 0x11f915bc] ++
  [0x6d88a37a, 0x110b3efd, 0xdbf98641, 0xca0093fd, 0x4e54f70e, 0x5f5fc9f3, 0x84a64fb2, 0x4ea6dc4f] ++
  [0xead27321, 0xb58dbad2, 0x312bf560, 0x7f8d292f, 0xac7766f3, 0x19fadc21, 0x28d12941, 0x575c006e] ++
  [0xd014f9a8, 0xc9ee2589, 0xe13f0cc8, 0xb6630ca6]

/-- V20: the subkeys of the key of V2, as the spec prints them. -/
def v20 : List (BitVec 48) :=
  [0x1b02effc7072, 0x79aed9dbc9e5, 0x55fc8a42cf99, 0x72add6db351d, 0x7cec07eb53a8, 0x63a53e507b2f] ++
  [0xec84b7f618bc, 0xf78a3ac13bfb, 0xe0dbebede781, 0xb1f347ba464f, 0x215fd3ded386, 0x7571f59467e9] ++
  [0x97c5d1faba41, 0x5f43b7f2e73a, 0xbf918d3d3f0a, 0xcb3d8b0e17f5]

/-- A core with the schedule of V3. -/
def withAes : State := { State.reset with rk := rkOf v3, aes_kv := true, aes_ks := 0 }

/-- A core with the subkeys of V20. -/
def withDes : State := { State.reset with sk := skOf v20, des_kv := true }

/-! ### One step of each command -/

/-- V35: NOP accepted. -/
theorem test_nop_accepted : statusAfter (step (writing 0x00000000 State.reset)) = some 0x00000001 := by decide

/-- V35: a pending NOP completes with ERR of a BUSY rejection still up. -/
theorem test_nop_completes : statusAfter (step
    { pending .nop noKey noDin State.reset with err := true, errcode := 5 }) = some 0x00000056 := by decide

/-- V3: the whole AES-128 schedule; RK beyond it holds nothing. -/
theorem test_aes_keyexp :
    (after (exec (.aesKeyexp 0) (pending (.aesKeyexp 0) #v[0x2B7E1516, 0x28AED2A6, 0xABF71588, 0x09CF4F3C, 5, 6, 7, 8]
      noDin State.reset))).map (fun t => (t.rk, t.aes_kv, t.aes_ks)) = some (rkOf v3, true, 0) := by
  decide +kernel

/-- V35: KSIZE = 3 is rejected and the schedule in place stays. -/
theorem test_aes_keyexp_rejected : (after (step (writing 0x00000031 withAes))).map
    (fun t => (statusWord t.toArch, t.rk == withAes.rk)) = some (0x00000124, true) := by decide +kernel

/-- V1, under the schedule V3 prints. -/
theorem test_aes_enc : output .aesEnc noKey #v[0x3243F6A8, 0x885A308D, 0x313198A2, 0xE0370734] withAes =
    some #v[0x3925841D, 0x02DC09FB, 0xDC118597, 0x196A0B32] := by decide +kernel

/-- V35: AES_ENC without a schedule. -/
theorem test_aes_enc_rejected : statusAfter (step (writing 0x00000002 State.reset)) = some 0x00000034 := by decide

/-- V20, from the key of V2. -/
theorem test_des_keysched :
    (after (exec .desKeysched (pending .desKeysched #v[0x13345779, 0x9BBCDFF1, 1, 2, 3, 4, 5, 6] noDin
      State.reset))).map (fun t => (t.sk, t.des_kv)) = some (skOf v20, true) := by decide +kernel

/-- V2, under the subkeys V20 prints; DIN2 and DIN3 are ignored. -/
theorem test_des_enc : output .desEnc noKey #v[0x74616E75, 0x73687269, 7, 9] withDes =
    some #v[0x1C43A605, 0x9EAD0F58, 0, 0] := by decide +kernel

/-- V35: DES_ENC without a schedule. -/
theorem test_des_enc_rejected : statusAfter (step (writing 0x00000004 State.reset)) = some 0x00000044 := by decide

/-- V10: the bits above 7 are ignored, and all of DOUT is written. -/
theorem test_gf_mul : output .gfMul noKey #v[0xFFFFFF57, 0x12345683, 1, 1]
    { State.reset with dout := .replicate 4 0xFFFFFFFF } = some #v[0x000000C1, 0, 0, 0] := by decide +kernel

/-- V10: the largest operands. -/
theorem test_gf_mul_largest : output .gfMul noKey #v[0xFF, 0xFF, 0, 0] State.reset = some #v[0x13, 0, 0, 0] := by
  decide +kernel

/-- V11: four different bytes. -/
theorem test_aes_subword : output .aesSubword noKey #v[0x53FF0001, 1, 1, 1] State.reset =
    some #v[0xED16637C, 0, 0, 0] := by decide +kernel

/-- V12: four different bytes, and one column of the matrix. -/
theorem test_aes_mixcol : output .aesMixcol noKey #v[0xDB135345, 1, 1, 1] State.reset =
    some #v[0x8E4DA1BC, 0, 0, 0] := by decide +kernel
theorem test_aes_mixcol_column : output .aesMixcol noKey #v[0x80000000, 0, 0, 0] State.reset =
    some #v[0x1B80809B, 0, 0, 0] := by decide +kernel

/-- V30: a table that narrows the input, and the table E on the first half of the input. -/
theorem test_des_perm_pc1 : output (.desPerm 0) noKey #v[0x01234567, 0x89ABCDEF, 1, 1] State.reset =
    some #v[0xF0CCAA0A, 0xACCF0000, 0, 0] := by decide +kernel
theorem test_des_perm_e : output (.desPerm 4) noKey #v[0x01234567, 0x89ABCDEF, 1, 1] State.reset =
    some #v[0x802906A0, 0xAB0E0000, 0, 0] := by decide +kernel

/-- V31: the low half of DIN1 is ignored. -/
theorem test_des_sbox : output .desSbox noKey #v[0x6117BA86, 0x6527FFFF, 1, 1] State.reset =
    some #v[0x5C82B597, 0, 0, 0] := by decide +kernel

/-- V32: round 1 of V21. -/
theorem test_des_f : output .desF noKey #v[0x00FFA454, 0x1B02EFFC, 0x70720000, 1] State.reset =
    some #v[0xE20D618B, 0, 0, 0] := by decide +kernel

/-! ### The window and the protocol -/

/-- V36: STATUS bit 2 clears ERR, the other bits do nothing. -/
theorem test_status_write :
    statusAfter (step { State.reset with err := true, errcode := 5, events := [.write 0x004 4 0xFFFFFFFF] }) = some 0 ∧
      statusAfter (step { State.reset with err := true, errcode := 5, events := [.write 0x004 4 0x00000003] }) =
        some 0x54 := by decide

/-- V35: BUSY beats ILLEGAL_CMD. -/
theorem test_busy_first :
    statusAfter (step (writing 0x0000000B (pending .nop noKey noDin State.reset))) = some 0x00000055 := by decide

/-- V37: a write of DOUT is ignored, and so is one of a reserved offset. -/
theorem test_ignored_writes :
    after (step { State.reset with events := [.write 0x040 4 0x12345678] }) = some State.reset ∧
      after (step { State.reset with events := [.write 0x050 4 0xFFFFFFFF] }) = some State.reset := by decide

/-- V37: KEY0 takes a write, and the last KEY and DIN words are where R51 puts them. -/
theorem test_key_din_writes :
    (after (step { State.reset with events := [.write 0x010 4 0xDEADBEEF] })).map (fun t => t.key[0]) =
        some 0xDEADBEEF ∧
      (after (step { State.reset with events := [.write 0x02C 4 7] })).map (fun t => t.key[7]) = some 7 ∧
      (after (step { State.reset with events := [.write 0x03C 4 7] })).map (fun t => t.din[3]) = some 7 := by decide

/-- V37: a 16-bit write of KEY0 and a 32-bit read at 0x012 stop the model. -/
theorem test_unsupported_access :
    step { State.reset with events := [.write 0x010 2 0xDEAD] } = .fault (.unsupportedAccess 0x010 2) ∧
      step { State.reset with events := [.read 0x012 4] } = .fault (.unsupportedAccess 0x012 4) := by
  constructor <;> rfl

/-- V37: DOUT read while BUSY = 1 is the draw, and the next draw is another. -/
theorem test_read_dout_while_busy :
    (after (step { pending .nop noKey noDin State.reset with events := [.read 0x040 4] })).map
      (fun t => (t.rdata, t.draws)) = some (some (Config.any32 0), 1) := rfl

/-- The command word placed for the first step after reset is the one that step runs. -/
theorem test_withFetchWord :
    step (State.reset.withFetchWord 32 0x00000021) = exec (.aesKeyexp 2) State.reset := by rfl

/-- R82: of two `WAIT`s in a program the second polls by itself, and a label that stands later is found too. -/
theorem test_labels :
    Script.labelLine (Script.wait ++ Script.cmd .nop ++ Script.wait) 4 "w" = 3 ∧
      Script.labelLine (Script.wait ++ Script.cmd .nop ++ Script.wait) 1 "w" = 0 ∧
      Script.labelLine ([.bit1 .status 2 "fail"] ++ Script.wait ++ [.label "fail"]) 0 "fail" = 3 := by decide

/-- R107, R7: with LATENCY = 1 a `CMD NOP; WAIT` makes its poll before the engine is due; the label is no host step. -/
theorem test_latency_counts_host_steps :
    let program := Script.cmd .nop ++ Script.wait
    let atLine := fun pos => (⟨pos, pending .nop noKey noDin State.reset⟩ : Script.Run)
    Script.waitedAfter program 0 (atLine 1) = 0 ∧ Script.engineDue (fun _ _ => 1) program 0 (atLine 2) = false ∧
      Script.waitedAfter program 0 (atLine 2) = 1 ∧ Script.engineDue (fun _ _ => 1) program 1 (atLine 1) = true ∧
      Script.engineDue (fun _ _ => 1) program 0 (atLine 3) = true := by decide

/-! ### Witnesses: the hypotheses of the obligations can be met -/

/-- A pending NOP on a core otherwise reset satisfies the invariant. -/
theorem pending_nop_inv : (pending .nop noKey noDin State.reset).Inv where
  busy_pend := rfl
  busy_done := rfl
  err_code := rfl
  code_range := by decide
  ks_range := by decide
  aes_store := by intro h; cases h
  aes_empty := fun _ => ⟨rfl, rfl⟩
  des_store := by decide
  pend_accepted := by
    intro p hp
    obtain rfl : (⟨0, 0, 0, noKey, noDin⟩ : Pending) = p := by simpa [pending, Instr.op, Instr.ksize, Instr.tsel] using hp
    exact ⟨.nop, rfl, rfl, by simp, by simp⟩

/-- The state after reset satisfies the invariant, so every check of a submission but BUSY and the two schedules' absence
can be the first to fail on it. -/
theorem reset_inv : State.reset.Inv where
  busy_pend := rfl
  busy_done := rfl
  err_code := rfl
  code_range := by decide
  ks_range := by decide
  aes_store := by intro h; cases h
  aes_empty := fun _ => ⟨rfl, rfl⟩
  des_store := by decide
  pend_accepted := by intro p hp; cases hp

/-- A core that holds both schedules satisfies the invariant. -/
theorem both_schedules_inv :
    ({ withAes with sk := skOf v20, des_kv := true } : State).Inv where
  busy_pend := rfl
  busy_done := rfl
  err_code := rfl
  code_range := by decide
  ks_range := by decide
  aes_store := by
    intro _ i
    show (rkOf v3)[i].isSome = _
    rw [rkOf_get]
    revert i
    decide
  aes_empty := by intro h; cases h
  des_store := by
    intro n
    show (skOf v20)[n].isSome = _
    rw [skOf_get]
    revert n
    decide
  pend_accepted := by intro p hp; cases hp

theorem witness_IllFormedWordsAreRejected : State.reset.busy = false ∧
    ¬((0x0000000B : Word).extractLsb' 0 4).toNat ≤ 0xA ∧
    ¬((0x00000040 : Word) &&& ~~~(0x0000000F ||| 0) = 0) := by decide

theorem witness_PermuteReadsItsTableOneBased :
    ∀ t ∈ [1, 3], 1 ≤ t ∧ t ≤ ([true, false, true] : Bits).length := by decide

theorem witness_RotationMovesTowardIndexZero : 2 < [1, 2, 3].length ∧ 0 < [1, 2, 3].length := by decide

theorem witness_AesSboxIsInverseThenAffine : (0 : Byte) = 0 ∧ (0xFF : Byte) ≠ 0 := by decide

theorem witness_SboxLayerLooksUpSixBitGroups : (List.replicate 48 true).length = 48 ∧ 7 < 8 ∧ 3 < 4 := by decide

/-- A key of each size; the recurrence's first and last index for AES-256, with its extra branch between. -/
theorem witness_KeyExpansionFollowsItsRecurrence :
    (∀ nk ∈ [4, 6, 8], (List.replicate nk (bytes 0)).length = nk) ∧ 8 ≤ 8 ∧ 12 % 8 = 4 ∧ 59 < 4 * (14 + 1) := by
  decide

theorem witness_CipherRunsItsRounds : 1 ≤ 10 ∧ 1 ≤ 9 ∧ 9 < 10 := by decide

theorem witness_DesSubkeysComeFromRotatedHalves :
    (bitseq (0x133457799BBCDFF1 : BitVec 64)).length = 64 ∧ 15 < 16 := by decide

/-- V23: two keys that differ in the parity bits only. -/
theorem witness_ParityBitsDoNotAffectSubkeys :
    let k := bitseq (0x133457799BBCDFF1 : BitVec 64)
    let k' := bitseq (0x123556789ABDDEF0 : BitVec 64)
    k.length = 64 ∧ k'.length = 64 ∧ (∀ i < 64, i % 8 ≠ 7 → k[i]? = k'[i]?) ∧ k ≠ k' := by
  decide +kernel

theorem witness_DesEncryptRunsItsRounds : (bitseq (0x74616E7573687269 : BitVec 64)).length = 64 ∧
    (List.replicate 16 (List.replicate 48 true)).length = 16 ∧
    ∀ k ∈ List.replicate 16 (List.replicate 48 true), k.length = 48 := by
  refine ⟨by decide, by decide, fun k hk => ?_⟩
  rw [List.eq_of_mem_replicate hk]
  rfl

theorem witness_DesComplementationHolds :
    (bitseq (0x133457799BBCDFF1 : BitVec 64)).length = 64 ∧ (bitseq (0x74616E7573687269 : BitVec 64)).length = 64 := by
  decide

theorem witness_WeakKeyEncryptionIsAnInvolution : (bitseq (0x74616E7573687269 : BitVec 64)).length = 64 := by decide

/-- Each clause of the submission: the state's invariant, and the word that falls under it. -/
theorem witness_SubmissionMakesItsChecksInOrder :
    ((pending .nop noKey noDin State.reset).Inv ∧ (pending .nop noKey noDin State.reset).busy = true) ∧
      (State.reset.Inv ∧ State.reset.busy = false ∧ wellformed 0x0000000B = false ∧ wellformed 0x00000031 = true ∧
        wellformed 0x00000002 = true ∧ State.reset.aes_kv = false ∧ wellformed 0x00000004 = true ∧
        State.reset.des_kv = false ∧ wellformed 0x00000607 = true ∧ wellformed 0x00000507 = true) ∧
      ∃ s : State, s.Inv ∧ s.busy = false ∧ s.aes_kv = true ∧ s.des_kv = true :=
  ⟨⟨pending_nop_inv, rfl⟩, ⟨reset_inv, by decide⟩, _, both_schedules_inv, rfl, rfl, rfl⟩

/-- Every command passes its check on a core with both schedules, at every KSIZE and TSEL in range. -/
theorem witness_EveryCommandIsAcceptedWhenItsCheckPasses :
    ∃ s : State, s.pend = none ∧ s.aes_kv = true ∧ s.des_kv = true ∧ Instr.aesEnc.wf = true ∧ Instr.desEnc.wf = true ∧
      (∀ k : BitVec 2, k ≠ 3 → (Instr.aesKeyexp k).wf = true) ∧ ∀ t : BitVec 3, t < 6 → (Instr.desPerm t).wf = true :=
  ⟨{ withAes with des_kv := true }, rfl, rfl, rfl, rfl, rfl, by decide, by decide⟩

theorem witness_CommandsAreRejectedByTheirOwnChecks :
    State.reset.pend = none ∧ State.reset.aes_kv = false ∧ State.reset.des_kv = false := by decide

theorem witness_CtrlWriteWhileBusyIsRejected : (pending .nop noKey noDin State.reset).busy = true := rfl

/-- A pending record exists; this one serves every completion without a further hypothesis. -/
theorem witness_Completes (i : Instr) :
    ∃ s p, (s : State).pend = some p ∧ p.op = i.op ∧ p.ksize = i.ksize ∧ p.tsel = i.tsel :=
  ⟨pending i noKey noDin State.reset, _, rfl, rfl, rfl, rfl⟩

/-- AES_KEYEXP pending at every key size. -/
theorem witness_AesKeyexpCompletes : ∀ k : BitVec 2, k ≠ 3 →
    ∃ s p, (s : State).pend = some p ∧ p.ksize = k ∧ k ≠ 3 :=
  fun k hk => ⟨pending (.aesKeyexp k) noKey noDin State.reset, _, rfl, rfl, hk⟩

/-- AES_ENC pending on a core whose store holds a schedule, at every key size. -/
theorem witness_AesEncCompletes : ∀ k : BitVec 2, k ≠ 3 → ∃ (s : State) (p : Pending) (w : List AesWord),
    s.pend = some p ∧ s.aes_ks = k ∧ w.length = 4 * (10 + 2 * k.toNat + 1) ∧
      ∀ i < 4 * (10 + 2 * k.toNat + 1), s.rk[i]? = some (some (pack (wordAt w i))) := by
  intro k hk
  have h3 : k.toNat ≠ 3 := fun h => hk (BitVec.eq_of_toNat_eq h)
  have h4 := k.isLt
  refine ⟨{ pending .aesEnc noKey noDin State.reset with rk := .replicate 60 (some (pack (.replicate 4 0))), aes_ks := k },
    _, .replicate (4 * (10 + 2 * k.toNat + 1)) (.replicate 4 0), rfl, rfl, List.length_replicate, fun i hi => ?_⟩
  have h60 : i < 60 := by omega
  simp [wordAt, List.getD_eq_getElem?_getD, hi, h60]

theorem witness_DesEncCompletes : ∃ (s : State) (p : Pending) (k : Vector (BitVec 48) 16),
    s.pend = some p ∧ s.sk = k.map some :=
  ⟨{ pending .desEnc noKey noDin State.reset with sk := .replicate 16 (some 0) }, _, .replicate 16 0, rfl,
    by simp⟩

/-- DES_PERM pending with each table. -/
theorem witness_DesPermCompletes : ∀ t : BitVec 3, t < 6 → ∃ (s : State) (p : Pending) (table : List Nat) (nIn : Nat),
    s.pend = some p ∧ p.tsel = t ∧ (t, table, nIn) ∈ [(0, Tables.pc1, 64), (1, Tables.pc2, 56), (2, Tables.ip, 64),
      (3, Tables.ipinv, 64), (4, Tables.e, 32), ((5 : BitVec 3), Tables.p, 32)] := by
  intro t ht
  have : ∃ x : List Nat × Nat, (t, x.1, x.2) ∈ [(0, Tables.pc1, 64), (1, Tables.pc2, 56), (2, Tables.ip, 64),
      (3, Tables.ipinv, 64), (4, Tables.e, 32), ((5 : BitVec 3), Tables.p, 32)] := by
    have hcases : t = 0 ∨ t = 1 ∨ t = 2 ∨ t = 3 ∨ t = 4 ∨ t = 5 := by revert t; decide
    rcases hcases with rfl | rfl | rfl | rfl | rfl | rfl
    · exact ⟨(Tables.pc1, 64), by simp⟩
    · exact ⟨(Tables.pc2, 56), by simp⟩
    · exact ⟨(Tables.ip, 64), by simp⟩
    · exact ⟨(Tables.ipinv, 64), by simp⟩
    · exact ⟨(Tables.e, 32), by simp⟩
    · exact ⟨(Tables.p, 32), by simp⟩
  obtain ⟨x, hx⟩ := this
  exact ⟨pending (.desPerm t) noKey noDin State.reset, _, x.1, x.2, rfl, rfl, hx⟩

/-- Each stop: the first and the last word of an AES-128 schedule missing, the first and the last subkey missing, and
records with KSIZE = 3, TSEL = 6 and TSEL = 7; and a completion that does not go on. -/
theorem witness_CompletionsStopOnlyAsNamed :
    (∃ s p, (s : State).pend = some p ∧ ∀ t, exec .desEnc s ≠ .next t) ∧
    (∃ s p, (s : State).pend = some p ∧ ∀ v : Word, s.rk[0]? ≠ some (some v)) ∧
      (∃ s p, (s : State).pend = some p ∧ s.aes_ks = 0 ∧ (∀ j < 43, ∃ v, s.rk[j]? = some (some v)) ∧
        ∀ v : Word, s.rk[43]? ≠ some (some v)) ∧
      (∃ s p, (s : State).pend = some p ∧ s.sk[0] = none) ∧
      (∃ s p, (s : State).pend = some p ∧ (∀ m : Fin 16, m < 15 → s.sk[m].isSome = true) ∧ s.sk[15] = none) ∧
      (∃ s p, (s : State).pend = some p ∧ p.ksize = 3) ∧
      (∃ s p, (s : State).pend = some p ∧ p.tsel = 6) ∧ ∃ s p, (s : State).pend = some p ∧ p.tsel = 7 := by
  refine ⟨⟨pending .desEnc noKey noDin State.reset, _, rfl, fun t h => nomatch h⟩,
    ⟨pending .aesEnc noKey noDin State.reset, _, rfl, ?_⟩,
    ⟨{ pending .aesEnc noKey noDin State.reset with rk := rkOf (.replicate 43 0) }, _, rfl, rfl, ?_, ?_⟩,
    ⟨pending .desEnc noKey noDin State.reset, _, rfl, rfl⟩,
    ⟨{ pending .desEnc noKey noDin State.reset with sk := skOf (.replicate 15 0) }, _, rfl, by decide, by decide⟩,
    ⟨pending (.aesKeyexp 3) noKey noDin State.reset, _, rfl, rfl⟩,
    ⟨pending (.desPerm 6) noKey noDin State.reset, _, rfl, rfl⟩,
    ⟨pending (.desPerm 7) noKey noDin State.reset, _, rfl, rfl⟩⟩
  · intro v
    simp [pending, State.reset, Arch.reset]
  · intro j hj
    have h60 : j < 60 := by omega
    refine ⟨0, ?_⟩
    show (rkOf (.replicate 43 0))[j]? = _
    rw [Vector.getElem?_eq_getElem h60]
    simp only [rkOf, Vector.getElem_ofFn, List.getElem?_replicate, hj, if_true]
  · intro v
    simp [rkOf]

/-- An output command, and each command that is none, completes from a state with nothing else assumed. -/
theorem witness_Frames :
    (IsOutput .gfMul ∧ ∃ s p t, (s : State).pend = some p ∧ exec .gfMul s = .next t) ∧
      (∃ s p t, (s : State).pend = some p ∧ exec .nop s = .next t) ∧
      (∃ s p t, (s : State).pend = some p ∧ exec (.aesKeyexp 2) s = .next t) ∧
      (∃ s p t, (s : State).pend = some p ∧ exec .desKeysched s = .next t) ∧
      (IsOutput (.desPerm 5) ∧ ∃ s p t, (s : State).pend = some p ∧ exec (.desPerm 5) s = .next t) ∧
      ∃ s t, exec .nop s = .next t ∧ ¬IsAes .nop ∧ ¬IsDes .nop := by
  refine ⟨⟨by simp [IsOutput], pending .gfMul noKey noDin State.reset, _, _, rfl, rfl⟩,
    ⟨pending .nop noKey noDin State.reset, _, _, rfl, rfl⟩,
    ⟨pending (.aesKeyexp 2) noKey noDin State.reset, _, _, rfl, rfl⟩,
    ⟨pending .desKeysched noKey noDin State.reset, _, _, rfl, rfl⟩,
    ⟨by simp [IsOutput], pending (.desPerm 5) noKey noDin State.reset, _, _, rfl, rfl⟩,
    ⟨State.reset, _, rfl, by simp [IsAes], by simp [IsDes]⟩⟩

/-- Two states that differ in KEY, DIN and DOUT, with one pending record. -/
theorem witness_CompletionDependsOnlyOnSnapshotAndStore : ∃ s s' p t t', (s : State).pend = some p ∧
    (s' : State).pend = some p ∧ s.din ≠ s'.din ∧ exec .gfMul s = .next t ∧ exec .gfMul s' = .next t' :=
  ⟨pending .gfMul noKey noDin State.reset,
    pending .gfMul noKey noDin { State.reset with din := .replicate 4 1, dout := .replicate 4 1 },
    _, _, _, rfl, rfl, by decide, rfl, rfl⟩

/-- The first and the last offset of the window, and of each register file in it. -/
theorem witness_HostAccessesFollowTheRegisterMap :
    [(0x000 : Offset), 0x004, 0x008, 0x00C, 0x010, 0x02C, 0x030, 0x03C, 0x040, 0x04C, 0x050, 0x0FC].all
      (fun off => off.toNat % 4 == 0 && decide (off.toNat < 0x100)) = true := by decide

/-- The three ways an access is undefined, at a boundary each. -/
theorem witness_UndefinedAccessesFault :
    (2 ≠ 4) ∧ (0x012 : Offset).toNat % 4 ≠ 0 ∧ 0x100 ≤ (0x100 : Offset).toNat ∧ 0x100 ≤ (0xFFF : Offset).toNat := by
  decide

/-- STATUS is read twice while BUSY = 1, and DOUT0 twice while BUSY = 0. -/
theorem witness_RepeatedReadsAgree :
    (∃ s t u rest, (s : State).busy = true ∧ (0x004 : Offset).toNat < 0x040 ∧
      s.events = .read 0x004 4 :: .read 0x004 4 :: rest ∧ step s = .next t ∧ step t = .next u) ∧
    ∃ s t u rest, (s : State).busy = false ∧ s.events = .read 0x040 4 :: .read 0x040 4 :: rest ∧
      step s = .next t ∧ step t = .next u :=
  ⟨⟨{ pending .nop noKey noDin State.reset with events := [.read 0x004 4, .read 0x004 4] }, _, _, [], rfl, by decide,
    rfl, rfl, rfl⟩,
    ⟨{ State.reset with events := [.read 0x040 4, .read 0x040 4] }, _, _, [], rfl, rfl, rfl, rfl⟩⟩

theorem witness_StepRunsTheCommandWritten : State.reset.busy = false ∧ decode 0x00000507 = .ok (.desPerm 5) := by
  decide

theorem witness_StepRunsThePendingCommand :
    (∃ s p, (s : State).pend = some p ∧ decode p.word = .ok (.desPerm 5)) ∧ State.reset.pend = none :=
  ⟨⟨pending (.desPerm 5) noKey noDin State.reset, _, rfl, by decide⟩, rfl⟩

/-- A step from the invariant that changes the core: a pending NOP completes. -/
theorem witness_StepKeepsTheInvariant : ∃ s t : State, s.Inv ∧ step s = .next t ∧ t ≠ s :=
  ⟨_, _, pending_nop_inv, rfl, by decide⟩

/-- The invariant's states go on, and stop on an undefined access. -/
theorem witness_OnlyUndefinedAccessesStopTheCore :
    (State.reset.Inv ∧ State.reset.Safe) ∧
      ∃ s : State, s.Inv ∧ s.unsupportedNext 0x012 4 ∧ step s = .fault (.unsupportedAccess 0x012 4) :=
  ⟨⟨reset_inv, _, rfl⟩, { State.reset with events := [.read 0x012 4] }, reset_inv, ⟨by decide, .inl ⟨_, rfl⟩⟩, rfl⟩

/-- A command pending, with a read and a write still scheduled, and with a reset after them. -/
theorem witness_PendingCommandCompletesAfterTheSchedule :
    supported 0x004 4 = true ∧ supported 0x000 4 = true ∧
      (∃ s : State, s.Inv ∧ s.pend ≠ none ∧ s.events = [.read 0x004 4, .write 0x000 4 0] ∧ .reset ∉ s.events) ∧
      ∃ s : State, s.Inv ∧ s.pend ≠ none ∧ s.events = [.read 0x004 4, .write 0x000 4 0, .reset] :=
  ⟨by decide, by decide,
    ⟨{ pending .nop noKey noDin State.reset with events := [.read 0x004 4, .write 0x000 4 0] }, pending_nop_inv,
      by simp [pending], rfl, by simp⟩,
    ⟨{ pending .nop noKey noDin State.reset with events := [.read 0x004 4, .write 0x000 4 0, .reset] },
      pending_nop_inv, by simp [pending], rfl⟩⟩

/-- A key expanded, then a pending AES_ENC on the same store while KEY and DIN hold other values. -/
theorem witness_AesEncryptsUnderTheKeyLastExpanded : ∃ (s t s' : State) (p p' : Pending), s.pend = some p ∧
    p.ksize = 1 ∧ exec (.aesKeyexp 1) s = .next t ∧ s'.rk = t.rk ∧ s'.aes_ks = t.aes_ks ∧ s'.pend = some p' ∧
    s'.key ≠ s.key :=
  ⟨pending (.aesKeyexp 1) noKey noDin State.reset, _,
    { pending .aesEnc noKey noDin State.reset with
      key := .replicate 8 1
      rk := rkOf (aesSchedule ⟨0x1, 1, 0, noKey, noDin⟩)
      aes_ks := 1 }, _, _, rfl, rfl, rfl, rfl, rfl, rfl, by decide⟩

/-- A key scheduled, then a pending DES_ENC on the same store while KEY holds another value. -/
theorem witness_DesEncryptsUnderTheKeyLastScheduled : ∃ (s t s' : State) (p p' : Pending), s.pend = some p ∧
    exec .desKeysched s = .next t ∧ s'.sk = t.sk ∧ s'.pend = some p' ∧ s'.key ≠ s.key :=
  ⟨pending .desKeysched noKey noDin State.reset, _,
    { pending .desEnc noKey noDin State.reset with
      key := .replicate 8 1
      sk := skOf (desSchedule ⟨0x3, 0, 0, noKey, noDin⟩) }, _, _, rfl, rfl, rfl, rfl, by decide⟩

end Sys2Proof.Tests
end

section
/-! PROOF. Family 00_scope.md. Decoding a command's own word, the invariant of the core's record along every turn, and
that no defined turn stops the core; from these, what a schedule leaves once it has been taken. -/

namespace Sys2Proof

/-! ### Words of commands and of pending records -/

/-- Bits 5:4 of a command word are the KSIZE it was made with. -/
theorem ksizeField_commandWord (op : BitVec 4) (k : BitVec 2) (t : BitVec 3) : ksizeField (commandWord op k t) = k := by
  ext j hj
  have h32 : j < 32 ∧ 4 + j < 32 := by omega
  have ht : 4 + j < 8 := by omega
  simp [ksizeField, commandWord, h32, ht, hj]

/-- Bits 10:8 of a command word are the TSEL it was made with. -/
theorem tselField_commandWord (op : BitVec 4) (k : BitVec 2) (t : BitVec 3) : tselField (commandWord op k t) = t := by
  ext j hj
  have hop : op.getLsbD (8 + j) = false := BitVec.getLsbD_of_ge op _ (by omega)
  have hk : k.getLsbD (8 + j - 4) = false := BitVec.getLsbD_of_ge k _ (by omega)
  have h32 : j < 32 ∧ 8 + j < 32 := by omega
  simp [tselField, commandWord, hop, hk, h32, hj]

/-- The decoder reads a command back from its own word (R82). -/
theorem decode_encode (i : Instr) : decode (encode i) = .ok i := by
  cases i with
  | aesKeyexp k => revert k; decide
  | desPerm t => revert t; decide
  | _ => rfl

/-- A decoded command's KSIZE and TSEL are the word's, where the command uses them (R71). -/
theorem decode_fields {v : Word} {i : Instr} (h : decode v = .ok i) :
    (∀ k, i = .aesKeyexp k → k = ksizeField v) ∧ ∀ t, i = .desPerm t → t = tselField v := by
  unfold decode at h
  split at h
  · cases h
  · split at h
    · cases h
    · split at h <;> cases h <;> simp

end Sys2Proof

namespace Sys2Proof.Machine

/-! ### What keeps the invariant -/

/-- Clearing the error keeps the invariant. -/
theorem clearErr_inv {s : State} (hi : s.Inv) : (clearErr s).Inv :=
  { hi with err_code := rfl, code_range := by simp }

/-- A rejection keeps the invariant: its code is one of 1..6. -/
theorem reject_inv (code : ErrCode) {s : State} (hi : s.Inv) : (reject code s).Inv :=
  { hi with
    busy_done := by
      have := hi.busy_done
      simp only [reject_busy, reject_done]
      split <;> simp_all
    err_code := by cases code <;> rfl
    code_range := by rw [reject_errcode]; cases code <;> decide }

/-- A command its own check passes has its fields in range and the schedule it needs (R101). -/
theorem commandCheck_none {i : Instr} {s : State} (h : commandCheck i s = none) :
    i.wf = true ∧ (i = .aesEnc → s.aes_kv = true) ∧ (i = .desEnc → s.des_kv = true) := by
  cases i <;> simp_all [commandCheck, Instr.wf]

/-- Accepting a command its own check passes keeps the invariant. -/
theorem accept_inv {i : Instr} {s : State} (hi : s.Inv) (hc : commandCheck i s = none) : (accept i s).Inv :=
  { hi with
    busy_pend := rfl
    busy_done := rfl
    err_code := rfl
    code_range := by simp
    pend_accepted := by
      intro p hp
      obtain rfl : snapshot i s = p := by simpa using hp
      exact ⟨i, decode_encode i, commandCheck_none hc⟩ }

/-- The tail of `complete()` keeps the invariant. -/
theorem retire_inv {s : State} (hi : s.Inv) : (retire s).Inv :=
  { hi with busy_pend := rfl, busy_done := rfl, pend_accepted := by simp }

/-- A key size that exists needs no more schedule words than RK has (R34, R73). -/
theorem scheduleWords_le {k : BitVec 2} (hk : k ≠ 3) : scheduleWords k ≤ 60 := by
  revert k; decide

/-- The stored AES schedule has the length its key size says (R73, R174). -/
theorem aesSchedule_length {p : Pending} (hk : p.ksize ≠ 3) : (aesSchedule p).length = scheduleWords p.ksize := by
  have hlt : p.ksize.toNat < 3 := by
    have := p.ksize.isLt
    have : p.ksize.toNat ≠ 3 := fun h => hk (BitVec.eq_of_toNat_eq h)
    omega
  rw [aesSchedule, List.length_map, keyExpansion_length, scheduleWords]
  · simp [Pending.aesKey, nkOf]; omega
  · simp [nrOf, nkOf]; omega

/-- A completion's effect keeps the invariant: the store it writes, if any, is full (R183, R218). -/
theorem commandEffect_inv {i : Instr} {p : Pending} {s u : State} (hi : s.Inv) (h : commandEffect i p s = .next u) :
    u.Inv := by
  obtain ⟨-, rfl⟩ | ⟨d, rfl, -⟩ | ⟨-, hk, rfl⟩ | ⟨-, rfl⟩ := commandEffect_next h
  · exact hi
  · exact { hi with }
  · exact { hi with
      ks_range := hk
      aes_store := fun _ j => by
        show (rkOf (aesSchedule p))[j].isSome = decide (j.val < scheduleWords p.ksize)
        rw [rkOf_get, ← aesSchedule_length hk]
        by_cases hj : j.val < (aesSchedule p).length <;> simp [hj]
      aes_empty := by simp
      pend_accepted := fun q hq => by
        obtain ⟨j, hj, hwf, -, hdes⟩ := hi.pend_accepted q hq
        exact ⟨j, hj, hwf, fun _ => rfl, hdes⟩ }
  · exact { hi with
      des_store := fun n => by
        show (skOf (desSchedule p))[n].isSome = true
        simp [skOf_get, desSchedule, -Fin.getElem_fin]
      pend_accepted := fun q hq => by
        obtain ⟨j, hj, hwf, haes, -⟩ := hi.pend_accepted q hq
        exact ⟨j, hj, hwf, haes, fun _ => rfl⟩ }

/-- The core after reset satisfies the invariant (R41). -/
theorem resetCore_inv (s : State) : (resetCore s).Inv where
  busy_pend := rfl
  busy_done := rfl
  err_code := rfl
  code_range := by rw [resetCore_toArch]; decide
  ks_range := by rw [resetCore_toArch]; decide
  aes_store := by simp [Arch.reset]
  aes_empty := fun _ => ⟨rfl, rfl⟩
  des_store := by simp [Arch.reset]
  pend_accepted := by simp [Arch.reset]

/-- A read keeps the invariant. -/
theorem readReg_inv (r : Reg) {s : State} (hi : s.Inv) : (readReg r s).Inv :=
  (readReg_toArch r s).symm ▸ hi

/-- A register write keeps the invariant: KEY and DIN are outside it, and ERR and ERRCODE are cleared together. -/
theorem writeReg_inv (r : Reg) (v : Word) {s : State} (hi : s.Inv) : (writeReg r v s).Inv := by
  obtain h | h | ⟨i, -, h⟩ | ⟨i, -, h⟩ := writeReg_cases r v s <;> rw [h]
  · exact hi
  · exact clearErr_inv hi
  · exact { hi with }
  · exact { hi with }

/-! ### What leaves the schedule and the pending record alone -/

/-- A register write consumes no scheduled turn. -/
theorem writeReg_events (r : Reg) (v : Word) (s : State) : (writeReg r v s).events = s.events := by
  obtain h | h | ⟨i, -, h⟩ | ⟨i, -, h⟩ := writeReg_cases r v s <;> rw [h]
  rfl

/-- A register write leaves the pending record alone. -/
theorem writeReg_pend (r : Reg) (v : Word) (s : State) : (writeReg r v s).pend = s.pend := by
  obtain h | h | ⟨i, -, h⟩ | ⟨i, -, h⟩ := writeReg_cases r v s <;> rw [h]
  rfl

/-- A completion's effect consumes no scheduled turn. -/
theorem commandEffect_events {i : Instr} {p : Pending} {s u : State} (h : commandEffect i p s = .next u) :
    u.events = s.events := by
  obtain ⟨-, rfl⟩ | ⟨d, rfl, -⟩ | ⟨-, -, rfl⟩ | ⟨-, rfl⟩ := commandEffect_next h <;> rfl

/-! ### An accepted command's effect succeeds -/

/-- A run of entries without `NoValue` is read. -/
theorem storeValues_ok {α : Type} {first : Nat} {l : List (Option α)} (h : ∀ x ∈ l, x.isSome = true) :
    ∃ vs, storeValues first l = .ok vs := by
  cases hs : storeValues first l with
  | ok vs => exact ⟨vs, rfl⟩
  | error e =>
    obtain ⟨n, -, hn, -⟩ := (storeValues_error first l e).mp hs
    simpa using h none (List.mem_of_getElem? hn)

/-- A core with AES_KV = 1 holds every schedule word AES_ENC reads (R34, R183). -/
theorem readRk_ok {s : State} (hi : s.Inv) (hkv : s.aes_kv = true) : ∃ w, readRk (scheduleWords s.aes_ks) s = .ok w := by
  have hle := scheduleWords_le hi.ks_range
  refine storeValues_ok fun x hx => ?_
  obtain ⟨j, hj, rfl⟩ := List.mem_map.mp hx
  have hj : j < scheduleWords s.aes_ks := by simpa using hj
  have := hi.aes_store hkv ⟨j, by omega⟩
  simpa [hj, show j < 60 by omega] using this

/-- A core with DES_KV = 1 holds all sixteen subkeys (R218). -/
theorem readSk_ok {s : State} (hi : s.Inv) (hkv : s.des_kv = true) : ∃ k, readSk s = .ok k := by
  refine storeValues_ok fun x hx => ?_
  obtain ⟨n, hn, rfl⟩ := List.mem_iff_getElem.mp hx
  simpa [hkv] using hi.des_store ⟨n, by simpa using hn⟩

/-- A table whose TSEL is in range exists (R74). -/
theorem permTable_isSome {t : BitVec 3} (h : t < 6) : (permTable t).isSome = true := by
  revert t; decide

/-- The effect of a pending command that acceptance made succeeds (R102): its schedule is there and its fields are in
range. -/
theorem commandEffect_of_pending {s : State} (hi : s.Inv) {p : Pending} (hp : s.pend = some p) :
    ∃ i u, decode p.word = .ok i ∧ commandEffect i p s = .next u := by
  obtain ⟨i, hd, hwf, haes, hdes⟩ := hi.pend_accepted p hp
  refine ⟨i, ?_⟩
  suffices ∃ u, commandEffect i p s = .next u from this.imp fun _ hu => ⟨hd, hu⟩
  cases i with
  | aesKeyexp k =>
    have hk : p.ksize = k := by rw [(decode_fields hd).1 k rfl, Pending.word, ksizeField_commandWord]
    simp_all [Instr.wf, commandEffect, keyexpEffect]
  | aesEnc =>
    obtain ⟨w, hw⟩ := readRk_ok hi (haes rfl)
    simp [commandEffect, aesEncEffect, hw]
  | desEnc =>
    obtain ⟨k, hk⟩ := readSk_ok hi (hdes rfl)
    simp [commandEffect, desEncEffect, hk]
  | desPerm t =>
    have ht : p.tsel = t := by rw [(decode_fields hd).2 t rfl, Pending.word, tselField_commandWord]
    obtain ⟨table, htable⟩ := Option.isSome_iff_exists.mp (permTable_isSome (t := t) (by simpa [Instr.wf] using hwf))
    simp [commandEffect, permEffect, ht, htable]
  | nop | desKeysched | gfMul | aesSubword | desSbox | aesMixcol | desF => exact ⟨_, rfl⟩

/-! ### Submission, the engine's turn and every defined turn, from a state of the invariant -/

/-- All a submission can do from a state of the invariant: reject, or accept on an idle core. -/
theorem submit_of_inv {s : State} (hi : s.Inv) (v : Word) :
    (∃ code, submit v s = .next (reject code s)) ∨
      s.pend = none ∧ ∃ i, commandCheck i s = none ∧ submit v s = .next (accept i s) := by
  cases hb : s.busy with
  | true => exact .inl ⟨_, submit_busy hb⟩
  | false =>
    have hp : s.pend = none := by simpa [hb] using hi.busy_pend
    cases hd : decode v with
    | error e => exact .inl ⟨_, submit_illegal hb hd⟩
    | ok i =>
      rw [submit_command hb hd, exec_idle i hp]
      cases hc : commandCheck i s with
      | some code => exact .inl ⟨code, rfl⟩
      | none => exact .inr ⟨hp, i, hc, rfl⟩

/-- With a command pending, the engine's turn completes that command (R104). -/
theorem engineTurn_pending {s : State} (hi : s.Inv) {p : Pending} (hp : s.pend = some p) :
    ∃ i u, decode p.word = .ok i ∧ u.Inv ∧ u.events = s.events ∧ exec i s = .next (retire u) ∧
      engineTurn s = .next (retire u) := by
  obtain ⟨i, u, hd, hu⟩ := commandEffect_of_pending hi hp
  have hexec := exec_pending i hp hu
  exact ⟨i, u, hd, commandEffect_inv hi hu, commandEffect_events hu, hexec, by rw [engineTurn_command hp hd, hexec]⟩

/-- The engine's turn always goes on, leaves nothing pending, and keeps the invariant and the schedule. -/
theorem engineTurn_of_inv {s : State} (hi : s.Inv) :
    ∃ t, engineTurn s = .next t ∧ t.Inv ∧ t.events = s.events ∧ t.pend = none := by
  cases hp : s.pend with
  | none => exact ⟨s, engineTurn_idle hp, hi, rfl, hp⟩
  | some p =>
    obtain ⟨i, u, -, hu, hev, -, ht⟩ := engineTurn_pending hi hp
    exact ⟨retire u, ht, retire_inv hu, hev, rfl⟩

/-- A turn the spec defines: its access, if it is one, is supported (R54). -/
def Event.Defined (e : Event) : Prop :=
  (∀ off size, e = .read off size → supported off size = true) ∧
    ∀ off size v, e = .write off size v → supported off size = true

/-- A defined access of the host goes on, and keeps the invariant, the schedule and a pending record. -/
theorem hostTurn_of_inv {s : State} (hi : s.Inv) {e : Event} (hd : e.Defined) (hr : e ≠ .reset) (he : e ≠ .engine) :
    ∃ t, turn e s = .next t ∧ t.Inv ∧ t.events = s.events ∧ ∀ p, s.pend = some p → t.pend = some p := by
  cases e with
  | read off size =>
    exact ⟨_, hostRead_supported (hd.1 off size rfl), readReg_inv _ hi, readReg_events _ _,
      by simp [readReg_toArch]⟩
  | write off size v =>
    have hs := hd.2 off size v rfl
    by_cases hctrl : Reg.at off = .ctrl
    · simp only [turn, hostWrite_ctrl hs hctrl]
      obtain ⟨code, h⟩ | ⟨hp, i, hc, h⟩ := submit_of_inv hi v
      · exact ⟨_, h, reject_inv code hi, rfl, by simp⟩
      · exact ⟨_, h, accept_inv hi hc, rfl, by simp [hp]⟩
    · exact ⟨_, hostWrite_other hs hctrl, writeReg_inv _ v hi, writeReg_events _ v s, by simp [writeReg_pend]⟩
  | reset => exact absurd rfl hr
  | engine => exact absurd rfl he

/-- Every defined turn goes on, and keeps the invariant and the schedule. -/
theorem turn_of_inv {s : State} (hi : s.Inv) {e : Event} (hd : e.Defined) :
    ∃ t, turn e s = .next t ∧ t.Inv ∧ t.events = s.events := by
  cases e with
  | reset => exact ⟨_, rfl, resetCore_inv s, rfl⟩
  | engine =>
    obtain ⟨t, ht, hinv, hev, -⟩ := engineTurn_of_inv hi
    exact ⟨t, ht, hinv, hev⟩
  | read | write =>
    obtain ⟨t, ht, hinv, hev, -⟩ := hostTurn_of_inv hi hd nofun nofun
    exact ⟨t, ht, hinv, hev⟩

/-! ### Runs -/

/-- A step takes the first scheduled turn, and the engine's when nothing is scheduled (log entry 2). -/
theorem step_eq_turn (s : State) : step s = turn (s.events.headD .engine) { s with events := s.events.tail } := by
  obtain ⟨a, events, rdata, draws⟩ := s
  cases events <;> rfl

/-- A run goes on from the state its first step leads to. -/
theorem run_succ_of_step {s t : State} (h : step s = .next t) (k : Nat) : core.run (k + 1) s = core.run k t := by
  have hcore : core.step s = .next t := h
  simp only [Host.Core.run, hcore]

/-- A schedule of defined turns and one more step lead to a state with nothing pending and nothing scheduled. -/
theorem run_schedule {s : State} (hi : s.Inv) (hd : ∀ e ∈ s.events, e.Defined) :
    ∃ t, core.run (s.events.length + 1) s = .next t ∧ t.pend = none ∧ t.busy = false ∧ t.events = [] := by
  induction h : s.events generalizing s with
  | nil =>
    obtain ⟨t, ht, hinv, hev, hp⟩ := engineTurn_of_inv (s := { s with events := [] }) hi
    have hstep : step s = .next t := by rw [step_eq_turn, h]; exact ht
    exact ⟨t, run_succ_of_step hstep 0, hp, by simp [hinv.busy_pend, hp], hev⟩
  | cons e rest ih =>
    rw [h] at hd
    obtain ⟨he, hrest⟩ := List.forall_mem_cons.mp hd
    obtain ⟨t, ht, hinv, hev⟩ := turn_of_inv (s := { s with events := rest }) hi he
    have hstep : step s = .next t := by rw [step_eq_turn, h]; exact ht
    obtain ⟨u, hrun, hu⟩ := ih hinv (hev ▸ hrest) hev
    exact ⟨u, (run_succ_of_step hstep _).trans hrun, hu⟩

/-- The step from `u` completes the record `p`, which is pending in `u`. -/
def CompletesAt (p : Pending) (u : State) : Prop :=
  ∃ t i, u.pend = some p ∧ decode p.word = .ok i ∧ step u = .next t ∧
    exec i { u with events := u.events.tail } = .next t ∧ t.pend = none ∧ t.busy = false ∧ t.done = true

/-- A step that is the engine's turn completes the pending record. -/
theorem completesAt_of_engineTurn {s : State} (hi : s.Inv) {p : Pending} (hp : s.pend = some p)
    (h : s.events.headD .engine = .engine) : CompletesAt p s := by
  obtain ⟨i, u, hdec, -, -, hexec, ht⟩ := engineTurn_pending (s := { s with events := s.events.tail }) hi hp
  have hstep : step s = .next (retire u) := by rw [step_eq_turn, h]; exact ht
  exact ⟨retire u, i, hp, hdec, hstep, hexec, rfl, rfl, rfl⟩

/-- Without a reset in the schedule a pending command completes within it or in the step after it: a host's access leaves
it pending, and the first turn of the engine completes it. -/
theorem pending_completes {s : State} (hi : s.Inv) (hd : ∀ e ∈ s.events, e.Defined) {p : Pending} (hp : s.pend = some p)
    (hr : .reset ∉ s.events) : ∃ k u, k ≤ s.events.length ∧ core.run k s = .next u ∧ CompletesAt p u := by
  induction h : s.events generalizing s with
  | nil => exact ⟨0, s, le_rfl, rfl, completesAt_of_engineTurn hi hp (by rw [h]; rfl)⟩
  | cons e rest ih =>
    rw [h] at hd hr
    obtain ⟨he, hrest⟩ := List.forall_mem_cons.mp hd
    obtain ⟨hne, hnr⟩ : .reset ≠ e ∧ .reset ∉ rest := by simpa using hr
    by_cases heng : e = .engine
    · exact ⟨0, s, Nat.zero_le _, rfl, completesAt_of_engineTurn hi hp (by rw [h, heng]; rfl)⟩
    · obtain ⟨t, ht, hinv, hev, hpend⟩ := hostTurn_of_inv (s := { s with events := rest }) hi he hne.symm heng
      have hstep : step s = .next t := by rw [step_eq_turn, h]; exact ht
      obtain ⟨k, u, hk, hrun, hu⟩ := ih hinv (hev ▸ hrest) (hpend p hp) (hev ▸ hnr) hev
      exact ⟨k + 1, u, Nat.succ_le_succ hk, (run_succ_of_step hstep k).trans hrun, hu⟩

/-- Settles O57: by induction on the schedule, every turn of it going on from a state of the invariant. -/
theorem pendingCommandCompletesAfterTheSchedule : Obligations.PendingCommandCompletesAfterTheSchedule := by
  unfold Obligations.PendingCommandCompletesAfterTheSchedule
  intro s hi hd
  refine ⟨run_schedule hi hd, fun p hp hr => ?_⟩
  obtain ⟨k, u, hk, hrun, t, i, hcompletes⟩ := pending_completes hi hd hp hr
  exact ⟨k, u, t, i, hk, hrun, hcompletes⟩

end Sys2Proof.Machine
end

section
/-! PROOF. Family 10_state.md. The invariant along every step, where a completion stops, which store a command can change,
and that a schedule stored by one command is the one a later encryption reads back. -/

open Sys2Proof.Claims

namespace Sys2Proof.Machine

/-! ### The invariant -/

/-- Settles O54: the core after reset is what an asserted reset leaves. -/
theorem resetStateSatisfiesTheInvariant : Obligations.ResetStateSatisfiesTheInvariant :=
  resetCore_inv State.reset

/-- A turn that goes on is a defined one: an access the spec does not define faults (R54). -/
theorem defined_of_turn_next {e : Event} {s t : State} (h : turn e s = .next t) : e.Defined := by
  constructor
  · rintro off size rfl
    by_contra hs
    simp [turn, hostRead_unsupported (Bool.eq_false_of_not_eq_true hs)] at h
  · rintro off size v rfl
    by_contra hs
    simp [turn, hostWrite_unsupported (Bool.eq_false_of_not_eq_true hs)] at h

/-- Settles O55: the turn a step takes is a defined one, and every defined turn keeps the invariant. -/
theorem stepKeepsTheInvariant : Obligations.StepKeepsTheInvariant := by
  unfold Obligations.StepKeepsTheInvariant
  intro s t hi h
  rw [step_eq_turn] at h
  obtain ⟨u, hu, hinv, -⟩ := turn_of_inv (s := { s with events := s.events.tail }) hi (defined_of_turn_next h)
  obtain rfl : u = t := Host.Outcome.next.inj (hu.symm.trans h)
  exact hinv

/-! ### The stores a command can change -/

/-- The effect of a command that is not the AES engine's leaves the AES store and its flags alone (R33). -/
theorem commandEffect_sameAesStore {i : Instr} {p : Pending} {s u : State} (h : commandEffect i p s = .next u)
    (hi : ¬IsAes i) : SameAesStore s u := by
  obtain ⟨-, rfl⟩ | ⟨d, rfl, -⟩ | ⟨hk, -, -⟩ | ⟨-, rfl⟩ := commandEffect_next h
  · exact ⟨rfl, rfl, rfl⟩
  · exact ⟨rfl, rfl, rfl⟩
  · exact absurd (.inl hk) hi
  · exact ⟨rfl, rfl, rfl⟩

/-- The effect of a command that is not the DES engine's leaves the DES store and its flag alone (R33). -/
theorem commandEffect_sameDesStore {i : Instr} {p : Pending} {s u : State} (h : commandEffect i p s = .next u)
    (hi : ¬IsDes i) : SameDesStore s u := by
  obtain ⟨-, rfl⟩ | ⟨d, rfl, -⟩ | ⟨-, -, rfl⟩ | ⟨hk, -⟩ := commandEffect_next h
  · exact ⟨rfl, rfl⟩
  · exact ⟨rfl, rfl⟩
  · exact ⟨rfl, rfl⟩
  · exact absurd (.inl hk) hi

/-- Settles O45: a rejection and an acceptance change neither store, and a completion changes at most the store of its own
engine. -/
theorem enginesShareNoCipherState : Obligations.EnginesShareNoCipherState := by
  unfold Obligations.EnginesShareNoCipherState
  intro i s t h
  obtain ⟨-, code, -, rfl⟩ | ⟨-, -, rfl⟩ | ⟨p, u, -, hu, rfl⟩ := exec_next h
  · exact ⟨fun _ => ⟨rfl, rfl, rfl⟩, fun _ => ⟨rfl, rfl⟩⟩
  · exact ⟨fun _ => ⟨rfl, rfl, rfl⟩, fun _ => ⟨rfl, rfl⟩⟩
  · have haes : ¬IsAes i → SameAesStore s u := commandEffect_sameAesStore hu
    have hdes : ¬IsDes i → SameDesStore s u := commandEffect_sameDesStore hu
    exact ⟨haes, hdes⟩

/-! ### Where a completion stops -/

/-- A read of RK stops exactly at the first of its words that is not there, `rk[59]` being the last there is (log entry
8). -/
theorem readRk_error_iff {count e : Nat} {s : State} :
    readRk count s = .error e ↔
      e < count ∧ (∀ j < e, ∃ v, s.rk[j]? = some (some v)) ∧ ∀ v, s.rk[e]? ≠ some (some v) := by
  have hsome (j : Nat) (hj : j < count) (x : Option Word) :
      ((List.range count).map fun i => s.rk.toList.getD i none)[j]? = some x ↔ s.rk[j]?.getD none = x := by
    simp [hj, List.getD_eq_getElem?_getD]
  have hvalue (j : Nat) (v : Word) : s.rk[j]?.getD none = some v ↔ s.rk[j]? = some (some v) := by
    cases s.rk[j]? <;> simp
  have hnone (j : Nat) : s.rk[j]?.getD none = none ↔ ∀ v, s.rk[j]? ≠ some (some v) := by
    simp only [Option.eq_none_iff_forall_ne_some, ne_eq, hvalue]
  rw [readRk, storeValues_error]
  constructor
  · rintro ⟨n, rfl, hn, hm⟩
    have hlt : n < count := by simpa using (List.getElem?_eq_some_iff.mp hn).1
    rw [Nat.zero_add]
    exact ⟨hlt, fun j hj => (hm j hj).imp fun v hv => (hvalue j v).mp ((hsome j (hj.trans hlt) _).mp hv),
      (hnone n).mp ((hsome n hlt _).mp hn)⟩
  · rintro ⟨hlt, hm, hn⟩
    exact ⟨e, (Nat.zero_add e).symm, (hsome e hlt _).mpr ((hnone e).mpr hn),
      fun j hj => (hm j hj).imp fun v hv => (hsome j (hj.trans hlt) _).mpr ((hvalue j v).mpr hv)⟩

/-- A read of SK stops exactly at the first subkey that is not there. -/
theorem readSk_error_iff {e : Nat} {s : State} :
    readSk s = .error e ↔
      ∃ n : Fin 16, e = n.val + 1 ∧ (∀ m < n, s.sk[m].isSome = true) ∧ s.sk[n] = none := by
  rw [readSk, storeValues_error]
  constructor
  · rintro ⟨n, rfl, hn, hm⟩
    have hlt : n < 16 := by simpa using (List.getElem?_eq_some_iff.mp hn).1
    refine ⟨⟨n, hlt⟩, Nat.add_comm 1 n, fun m hmn => ?_, by simpa [hlt] using hn⟩
    obtain ⟨v, hv⟩ := hm m hmn
    obtain ⟨_, hv⟩ := List.getElem?_eq_some_iff.mp hv
    exact Option.isSome_iff_exists.mpr ⟨v, by simpa using hv⟩
  · rintro ⟨n, rfl, hm, hn⟩
    refine ⟨n, Nat.add_comm n 1, by simpa using hn, fun m hmn => ?_⟩
    simpa [Option.isSome_iff_exists, hmn.trans n.isLt] using hm ⟨m, hmn.trans n.isLt⟩ hmn

/-- TSEL names no table exactly when it is 6 or 7 (R74). -/
theorem permTable_eq_none {t : BitVec 3} : permTable t = none ↔ 6 ≤ t := by
  revert t; decide

/-- All that can keep a completion's effect from a next state. -/
theorem commandEffect_stops {i : Instr} {p : Pending} {s : State} (h : ∀ u, commandEffect i p s ≠ .next u) :
    (i = .aesEnc ∧ ∃ e, readRk (scheduleWords s.aes_ks) s = .error e) ∨ (i = .desEnc ∧ ∃ e, readSk s = .error e) ∨
      ((∃ k, i = .aesKeyexp k) ∧ p.ksize = 3) ∨ (∃ t, i = .desPerm t) ∧ 6 ≤ p.tsel := by
  cases i with
  | aesEnc =>
    cases hr : readRk (scheduleWords s.aes_ks) s with
    | error e => exact .inl ⟨rfl, e, rfl⟩
    | ok w => simp [commandEffect, aesEncEffect, hr] at h
  | desEnc =>
    cases hr : readSk s with
    | error e => exact .inr (.inl ⟨rfl, e, rfl⟩)
    | ok k => simp [commandEffect, desEncEffect, hr] at h
  | aesKeyexp k =>
    refine .inr (.inr (.inl ⟨⟨k, rfl⟩, ?_⟩))
    by_contra hk
    exact h _ (if_neg hk)
  | desPerm t =>
    refine .inr (.inr (.inr ⟨⟨t, rfl⟩, permTable_eq_none.mp ?_⟩))
    cases ht : permTable p.tsel with
    | none => rfl
    | some table => simp [commandEffect, permEffect, ht] at h
  | nop | desKeysched | gfMul | aesSubword | desSbox | aesMixcol | desF => exact absurd rfl (h _)

/-- The number of schedule words, from the round count `10 + 2·k` (R73). -/
theorem scheduleWords_eq (k : BitVec 2) : scheduleWords k = 4 * (10 + 2 * k.toNat + 1) := by
  simp only [scheduleWords, nrOf, nkOf]
  omega

/-- Settles O41: a completion stops where its effect does, and an effect stops only on a store it cannot read or on a field
out of range. -/
theorem completionsStopOnlyAsNamed : Obligations.CompletionsStopOnlyAsNamed := by
  unfold Obligations.CompletionsStopOnlyAsNamed
  intro s p hp
  simp only [← scheduleWords_eq, ← readRk_error_iff]
  refine ⟨fun e he => exec_fault _ hp ?_, fun n hn => exec_fault _ hp ?_, fun k hk => exec_refused _ hp ?_,
    fun t ht => exec_refused _ hp ?_, fun i hi => ?_⟩
  · simp [commandEffect, aesEncEffect, he]
  · simp [commandEffect, desEncEffect, readSk_error_iff.mpr ⟨n, rfl, hn⟩]
  · simp [commandEffect, keyexpEffect, hk]
  · simp [commandEffect, permEffect, permTable_eq_none.mpr ht]
  · have hstop (u : State) : commandEffect i p s ≠ .next u := fun hu => hi _ (exec_pending i hp hu)
    obtain h | ⟨rfl, e, he⟩ | h | h := commandEffect_stops hstop
    · exact .inl h
    · obtain ⟨n, -, hn⟩ := readSk_error_iff.mp he
      exact .inr (.inl ⟨rfl, n, hn⟩)
    · exact .inr (.inr (.inl h))
    · exact .inr (.inr (.inr h))

/-! ### Sequences, words and blocks are read back -/

/-- A bit more at the end of a sequence is a lowest bit more of its number (R121). -/
theorem val_concat (b : Bits) (x : Bool) : val (b ++ [x]) = Nat.bit x (val b) := by
  cases x <;> simp [val, Nat.bit]

/-- The number of a sequence has the sequence's bits, the last one lowest (R121). -/
theorem testBit_val (b : Bits) (i : Nat) : (val b).testBit i = b.reverse.getD i false := by
  induction b using List.reverseRecOn generalizing i with
  | nil => simp [val]
  | append_singleton b x ih =>
    rw [val_concat, List.reverse_concat]
    cases i with
    | zero => simp
    | succ i => simp [Nat.testBit_bit_succ, ih]

/-- A sequence is read back from its number, in the width of its length (R120, R121). -/
theorem bitseq_val {n : Nat} {b : Bits} (h : b.length = n) : bitseq (BitVec.ofNat n (val b)) = b := by
  subst h
  refine List.ext_getElem (bitseq_length _) fun i _ hi => ?_
  have hrev : b.length - 1 - i < b.length := by omega
  have hback : b.length - 1 - (b.length - 1 - i) = i := by omega
  simp [bitseq, BitVec.getLsbD_ofNat, testBit_val, hrev, hback]

/-- Byte `r` of a word, byte 0 in bits 31:24 (R130). -/
theorem bytes_getElem (v : Word) (r : Fin 4) : (bytes v)[r] = v.extractLsb' (24 - 8 * r.val) 8 := by
  revert r
  simp [Fin.forall_fin_succ, bytes]

/-- A word is read back from its packed form (R130). -/
theorem bytes_pack (w : AesWord) : bytes (pack w) = w := by
  ext r hr j hj
  have hbyte : (bytes (pack w))[r] = (pack w).extractLsb' (24 - 8 * r) 8 := bytes_getElem (pack w) ⟨r, hr⟩
  rw [hbyte, BitVec.getElem_extractLsb', pack_bit]
  have hr' : r = 0 ∨ r = 1 ∨ r = 2 ∨ r = 3 := by omega
  obtain rfl | rfl | rfl | rfl := hr'
  · rw [if_neg (by omega), if_neg (by omega), if_neg (by omega)]; simp [hj]
  · rw [if_neg (by omega), if_neg (by omega), if_pos (by omega)]; simp [hj]
  · rw [if_neg (by omega), if_pos (by omega)]; simp [hj]
  · rw [if_pos (by omega)]; simp [hj]

/-- A block is loaded column by column, the most significant byte to row 0 (R12, R58). -/
theorem aesBlock_eq_loaded (d : Vector Word 4) : aesBlock d = loaded d := by
  simp only [aesBlock, AesState.of, loaded, bytes_getElem]

/-- A state matrix is stored column by column, row 0 in the most significant byte (R58, R182). -/
theorem aesBlockWords_eq_stored (m : AesState) : aesBlockWords m = stored m := by
  rfl

/-! ### A stored schedule is read back -/

/-- A schedule stored in RK is read back whole (R181, R182). -/
theorem readRk_rkOf {s : State} {w : List Word} (h : s.rk = rkOf w) (hw : w.length ≤ 60) :
    readRk w.length s = .ok w := by
  have hentries : ((List.range w.length).map fun i => s.rk.toList.getD i none) = w.map some := by
    refine List.ext_getElem (by simp) fun i hi _ => ?_
    have hlt : i < w.length := by simpa using hi
    have h60 : i < 60 := by omega
    simp [h, rkOf, hlt, h60]
  rw [readRk, hentries, storeValues_some]

/-- Sixteen subkeys stored in SK are read back (R216, R217). -/
theorem readSk_skOf {s : State} {k : List (BitVec 48)} (h : s.sk = skOf k) (hk : k.length = 16) :
    readSk s = .ok k := by
  have hentries : s.sk.toList = k.map some := by
    refine List.ext_getElem (by simp [hk]) fun i hi _ => ?_
    have hlt : i < k.length := by simpa [hk] using hi
    simp [h, skOf, hlt]
  rw [readSk, hentries, storeValues_some]

/-- A completed AES_KEYEXP leaves the expansion of its record's key in RK and the key size in AES_KSIZE (R181). -/
theorem exec_aesKeyexp_stores {s t : State} {p : Pending} {k : BitVec 2} (hp : s.pend = some p) (hk : p.ksize ≠ 3)
    (h : exec (.aesKeyexp k) s = .next t) : t.rk = rkOf (aesSchedule p) ∧ t.aes_ks = p.ksize := by
  have heff : commandEffect (.aesKeyexp k) p s =
      .next { s with rk := rkOf (aesSchedule p), aes_kv := true, aes_ks := p.ksize } := if_neg hk
  obtain rfl := Host.Outcome.next.inj ((exec_pending _ hp heff).symm.trans h)
  exact ⟨rfl, rfl⟩

/-- Unpacked, the words AES_KEYEXP stores are the key expansion itself (R181, R182). -/
theorem aesSchedule_map_bytes (p : Pending) :
    (aesSchedule p).map bytes = keyExpansion (snapshotKey p p.ksize) (nkOf p.ksize) (nrOf p.ksize) := by
  have hid : bytes ∘ pack = id := funext bytes_pack
  rw [aesSchedule, List.map_map, hid, List.map_id]
  rfl

/-- The tail of `complete()` after a write of DOUT, in the words of the statements (R104, R105). -/
theorem retire_writeDout (d : Vector Word 4) (s : State) :
    retire (writeDout d s) = completed { s with dout := d } := rfl

/-- A pending AES_ENC whose schedule is read completes with the cipher of its record's block (R182). -/
theorem exec_aesEnc_of_readRk {s : State} {p : Pending} {w : List Word} (hp : s.pend = some p)
    (hw : readRk (scheduleWords s.aes_ks) s = .ok w) :
    exec .aesEnc s = .next (completed { s with
      dout := stored (cipher (loaded p.din) (nrOf s.aes_ks) (w.map bytes)) }) := by
  rw [← retire_writeDout]
  refine exec_pending _ hp ?_
  simp [commandEffect, aesEncEffect, hw, aesBlock_eq_loaded, aesBlockWords_eq_stored]

/-- Settles O58: RK holds the packed expansion of the snapshot's key, and AES_ENC reads it back and unpacks it. -/
theorem aesEncryptsUnderTheKeyLastExpanded : Obligations.AesEncryptsUnderTheKeyLastExpanded := by
  unfold Obligations.AesEncryptsUnderTheKeyLastExpanded
  rintro s t s' p p' k hp rfl hk hexp hrk hks hp' nk out
  obtain ⟨hrk', hks'⟩ := exec_aesKeyexp_stores hp hk hexp
  rw [hks'] at hks
  have hlen : (aesSchedule p).length = scheduleWords s'.aes_ks := hks ▸ aesSchedule_length hk
  have hread : readRk (scheduleWords s'.aes_ks) s' = .ok (aesSchedule p) :=
    hlen ▸ readRk_rkOf (hrk.trans hrk') (aesSchedule_length hk ▸ scheduleWords_le hk)
  rw [exec_aesEnc_of_readRk hp' hread, aesSchedule_map_bytes, hks]
  rfl

/-- Every subkey has 48 bits (R211, R218). -/
theorem length_of_mem_desSubkeys {amounts : List Nat} {c d k : Bits} (h : k ∈ desSubkeys amounts c d) :
    k.length = 48 := by
  induction amounts generalizing c d with
  | nil => cases h
  | cons a rest ih =>
    obtain rfl | h := List.mem_cons.mp h
    · rw [permute_length]; rfl
    · exact ih h

/-- A completed DES_KEYSCHED leaves the subkeys of its record's key in SK (R216). -/
theorem exec_desKeysched_stores {s t : State} {p : Pending} (hp : s.pend = some p)
    (h : exec .desKeysched s = .next t) : t.sk = skOf (desSchedule p) := by
  obtain rfl := Host.Outcome.next.inj ((exec_pending .desKeysched hp rfl).symm.trans h)
  rfl

/-- As sequences of 48 bits, the subkeys DES_KEYSCHED stores are the key schedule itself (R216, R217). -/
theorem desSchedule_map_bitseq (p : Pending) :
    (desSchedule p).map bitseq = desKeySchedule (bitseq (p.key[0] ++ p.key[1])) := by
  rw [desSchedule, List.map_map]
  exact (List.map_congr_left fun k hk => bitseq_val (length_of_mem_desSubkeys hk)).trans (List.map_id _)

/-- A pending DES_ENC whose subkeys are read completes with the encryption of its record's block (R217). -/
theorem exec_desEnc_of_readSk {s : State} {p : Pending} {k : List (BitVec 48)} (hp : s.pend = some p)
    (hk : readSk s = .ok k) :
    exec .desEnc s = .next (completed { s with
      dout := result64 (BitVec.ofNat 64 (val (desEncrypt (bitseq (p.din[0] ++ p.din[1])) (k.map bitseq)))) }) := by
  rw [← retire_writeDout]
  refine exec_pending _ hp ?_
  simp [commandEffect, desEncEffect, hk, pair64]

/-- Settles O59: SK holds the numbers of the sixteen subkeys, and DES_ENC reads them back as sequences of 48 bits. -/
theorem desEncryptsUnderTheKeyLastScheduled : Obligations.DesEncryptsUnderTheKeyLastScheduled := by
  unfold Obligations.DesEncryptsUnderTheKeyLastScheduled
  intro s t s' p p' hp hsched hsk hp' k c
  have hread : readSk s' = .ok (desSchedule p) :=
    readSk_skOf (hsk.trans (exec_desKeysched_stores hp hsched)) (by simp [desSchedule])
  rw [exec_desEnc_of_readSk hp' hread, desSchedule_map_bitseq]
  rfl

end Sys2Proof.Machine
end

section
/-! PROOF. Family 20_memory.md. The register window: what a read returns, what a write does, which accesses are defined,
and that a repeated read agrees with the first. -/

namespace Sys2Proof.Machine

/-! ### The accesses the spec defines -/

/-- The defined accesses are 32 bits wide, at a multiple of 4, inside the window (R54; the window by log entry 4). -/
theorem supported_iff {off : Offset} {size : Nat} :
    supported off size = true ↔ size = 4 ∧ off.toNat % 4 = 0 ∧ off.toNat < 0x100 := by
  rw [supported, Bool.and_eq_true, Bool.and_eq_true, beq_iff_eq, beq_iff_eq, decide_eq_true_iff, and_assoc]
  rfl

/-- Settles O49: an access of any of the three kinds is not a defined one. -/
theorem undefinedAccessesFault : Obligations.UndefinedAccessesFault := by
  unfold Obligations.UndefinedAccessesFault
  intro s off size v rest h
  have hs : supported off size = false := by
    rw [← Bool.not_eq_true, supported_iff]
    omega
  exact ⟨hostRead_unsupported hs, hostWrite_unsupported hs⟩

/-! ### The map of the window -/

/-- The offsets at which the register map has a register (R51). -/
def Reg.Occupies (o : Nat) : Reg → Prop
  | .ctrl => o = 0x000
  | .status => o = 0x004
  | .key i => o = 0x010 + 4 * i
  | .din i => o = 0x030 + 4 * i
  | .dout i => o = 0x040 + 4 * i
  | .reserved => o = 0x008 ∨ o = 0x00C ∨ 0x050 ≤ o

/-- The register found at a multiple of 4 is one the register map has there (R51). -/
theorem Reg.at_occupies {off : Offset} (h : off.toNat % 4 = 0) : (Reg.at off).Occupies off.toNat := by
  simp only [Reg.at]
  split_ifs <;> simp only [Reg.Occupies] <;> omega

/-! ### Reads -/

/-- A read is of the stored value, unless it is of DOUT while BUSY = 1 (R27, R52). -/
theorem readReg_of_stored {r : Reg} {s : State} (h : ∀ i, r = .dout i → s.busy = false) :
    readReg r s = { s with rdata := some (peek r s.toArch) } := by
  cases r with
  | dout i => simp [readReg, h i rfl]
  | _ => rfl

/-- Settles O47: register by register, at the offsets the register map has it. -/
theorem hostReadsFollowTheRegisterMap : Obligations.HostReadsFollowTheRegisterMap := by
  unfold Obligations.HostReadsFollowTheRegisterMap
  intro s off rest h4 hw o status draw value
  have hread : step { s with events := .read off 4 :: rest } = .next (readReg (.at off) { s with events := rest }) :=
    hostRead_supported (supported_iff.mpr ⟨rfl, h4, hw⟩)
  rw [hread]
  have ho := Reg.at_occupies h4
  generalize Reg.at off = r at ho ⊢
  cases r with
  | ctrl =>
    replace ho : off.toNat = 0x000 := ho
    simp [readReg, peek, draw, value, o, ho]
  | status =>
    replace ho : off.toNat = 0x004 := ho
    simp [readReg, peek, statusWord, draw, value, status, o, ho]
  | key i =>
    replace ho : off.toNat = 0x010 + 4 * i := ho
    simp (disch := omega) [readReg, peek, draw, value, o, ho, if_pos, if_neg]
  | din i =>
    replace ho : off.toNat = 0x030 + 4 * i := ho
    simp (disch := omega) [readReg, peek, draw, value, o, ho, if_pos, if_neg]
  | dout i =>
    replace ho : off.toNat = 0x040 + 4 * i := ho
    cases hb : s.busy with
    | false => simp (disch := omega) [readReg, peek, draw, value, o, ho, hb, if_pos, if_neg]
    | true => simp (disch := omega) [readReg, draw, value, o, ho, hb, if_pos, if_neg]
  | reserved =>
    replace ho : off.toNat = 0x008 ∨ off.toNat = 0x00C ∨ 0x050 ≤ off.toNat := ho
    simp (disch := omega) [readReg, peek, draw, value, o, if_neg]

/-- A read that goes on is of a supported access, and leads to what the register's read leaves. -/
theorem step_read_next {s t : State} {off : Offset} {size : Nat} {rest : List Event}
    (hev : s.events = .read off size :: rest) (h : step s = .next t) :
    supported off size = true ∧ t = readReg (.at off) { s with events := rest } := by
  rw [step_eq_turn, hev] at h
  have hs : supported off size = true := (defined_of_turn_next h).1 off size rfl
  exact ⟨hs, Host.Outcome.next.inj (h.symm.trans (hostRead_supported hs))⟩

/-- Settles O50: a repeated read is of the stored value both times, and a read leaves what is stored as it was. -/
theorem repeatedReadsAgree : Obligations.RepeatedReadsAgree := by
  unfold Obligations.RepeatedReadsAgree
  intro s t u off size rest hbusy hev ht hu
  obtain ⟨hs, htr⟩ := step_read_next hev ht
  obtain ⟨-, hur⟩ := step_read_next (by rw [htr, readReg_events]) hu
  obtain ⟨-, haligned, -⟩ := supported_iff.mp hs
  have hstored : ∀ i, Reg.at off = .dout i → s.busy = false := by
    intro i hi
    have ho := Reg.at_occupies haligned
    simp only [hi, Reg.Occupies] at ho
    exact hbusy.resolve_right (by omega)
  obtain rfl : t = { s with events := .read off size :: rest, rdata := some (peek (.at off) s.toArch) } :=
    htr.trans (readReg_of_stored hstored)
  obtain rfl : u = { s with events := rest, rdata := some (peek (.at off) s.toArch) } :=
    hur.trans (readReg_of_stored hstored)
  exact ⟨rfl, rfl⟩

/-! ### Writes -/

/-- At an index of the vector, setting an element if it is in bounds is setting it. -/
theorem setIfInBounds_fin {α : Type} {n : Nat} (xs : Vector α n) (i : Fin n) (x : α) :
    xs.setIfInBounds i x = xs.set i x := by
  ext j hj
  rw [Vector.getElem_setIfInBounds, Vector.getElem_set]

/-- Settles O48: register by register, at the offsets the register map has it. -/
theorem hostWritesFollowTheRegisterMap : Obligations.HostWritesFollowTheRegisterMap := by
  unfold Obligations.HostWritesFollowTheRegisterMap
  intro s off v rest h4 hw h0 o t
  have ho := Reg.at_occupies h4
  have hctrl : Reg.at off ≠ .ctrl := fun h => by rw [h] at ho; exact h0 ho
  have hwrite : step { s with events := .write off 4 v :: rest } = .next (writeReg (.at off) v t) :=
    hostWrite_other (supported_iff.mpr ⟨rfl, h4, hw⟩) hctrl
  rw [hwrite]
  generalize Reg.at off = r at ho hctrl ⊢
  cases r with
  | ctrl => exact absurd rfl hctrl
  | status =>
    replace ho : off.toNat = 0x004 := ho
    simp [writeReg, clearErr, o, ho]
  | key i =>
    replace ho : off.toNat = 0x010 + 4 * i := ho
    simp (disch := omega) [writeReg, o, t, ho, if_pos, if_neg, setIfInBounds_fin]
  | din i =>
    replace ho : off.toNat = 0x030 + 4 * i := ho
    simp (disch := omega) [writeReg, o, t, ho, if_pos, if_neg, setIfInBounds_fin]
  | dout i =>
    replace ho : off.toNat = 0x040 + 4 * i := ho
    simp (disch := omega) [writeReg, o, ho, if_neg]
  | reserved =>
    replace ho : off.toNat = 0x008 ∨ off.toNat = 0x00C ∨ 0x050 ≤ off.toNat := ho
    simp (disch := omega) [writeReg, o, if_neg]

end Sys2Proof.Machine
end

section
/-! PROOF. Family 30_encoding.md. The decoder against the encoder, the opcode table and R75's formula. All three come down
to `wellformed`: a word decodes exactly if it is well-formed, exactly if it is a command's own word, and exactly if it is
in a row of the table. -/

open Sys2Proof.Claims

namespace Sys2Proof

/-! ### The two refusals of the decoder -/

/-- A word whose opcode is reserved is refused as such (R77). -/
theorem decode_reservedOpcode {v : Word} (h : 0xA < opField v) : decode v = .error .reservedOpcode :=
  if_pos h

/-- A word with a bit set outside its opcode's fields is refused as such (R78). -/
theorem decode_reservedBits {v : Word} (hop : opField v ≤ 0xA) (h : reservedPart v ≠ 0) :
    decode v = .error .reservedBits :=
  (if_neg (BitVec.not_lt.mpr hop)).trans (if_pos h)

/-- The two clauses of R75. -/
theorem wellformed_iff {v : Word} : wellformed v = true ↔ opField v ≤ 0xA ∧ reservedPart v = 0 := by
  rw [wellformed, Bool.and_eq_true, decide_eq_true_iff, beq_iff_eq]

/-- Only a well-formed word decodes: each clause of R75 is one of the decoder's refusals. -/
theorem wellformed_of_decode {v : Word} {i : Instr} (h : decode v = .ok i) : wellformed v = true := by
  rw [wellformed_iff]
  by_cases hop : opField v ≤ 0xA
  · refine ⟨hop, ?_⟩
    by_contra hr
    cases (decode_reservedBits hop hr).symm.trans h
  · cases (decode_reservedOpcode (BitVec.not_le.mp hop)).symm.trans h

/-! ### A word without reserved bits is put together from its fields -/

/-- A word masked to the `n` bits from bit `lo` on is the field there, back in its place. -/
theorem and_fieldMask (v : Word) (lo n : Nat) :
    v &&& ((BitVec.allOnes n).setWidth 32 <<< lo) = (v.extractLsb' lo n).setWidth 32 <<< lo := by
  ext j hj
  by_cases hlo : j < lo
  · simp [hlo]
  · by_cases hn : j - lo < n
    · simp [hlo, hn, BitVec.getLsbD_eq_getElem hj, Nat.add_sub_cancel' (Nat.le_of_not_lt hlo)]
    · simp [hlo, hn]

/-- Without reserved bits a word is its opcode and the bits of its opcode's fields (R75). -/
theorem eq_or_of_reservedPart {v : Word} (h : reservedPart v = 0) :
    v = (opField v).setWidth 32 ||| (v &&& fieldsMask (opField v)) := by
  have hop : v &&& 0xF = (opField v).setWidth 32 := by simpa [opField] using and_fieldMask v 0 4
  calc
    v = v &&& (0xF ||| fieldsMask (opField v)) ||| reservedPart v := by
      rw [reservedPart, ← BitVec.and_or_distrib_left, BitVec.or_not_self, BitVec.and_allOnes]
    _ = v &&& (0xF ||| fieldsMask (opField v)) := by simp [h]
    _ = (opField v).setWidth 32 ||| (v &&& fieldsMask (opField v)) := by rw [BitVec.and_or_distrib_left, hop]

/-- The bits of an opcode's fields are KSIZE for AES_KEYEXP, TSEL for DES_PERM, and none for another (R71, R75). -/
theorem and_fieldsMask (v : Word) (op : BitVec 4) :
    v &&& fieldsMask op = ((if op = 0x1 then ksizeField v else 0).setWidth 32 <<< 4) |||
      ((if op = 0x7 then tselField v else 0).setWidth 32 <<< 8) := by
  by_cases h1 : op = 0x1
  · subst h1
    simpa [fieldsMask, ksizeField] using and_fieldMask v 4 2
  · by_cases h7 : op = 0x7
    · subst h7
      simpa [fieldsMask, tselField] using and_fieldMask v 8 3
    · rw [fieldsMask, if_neg h1, if_neg h7, if_neg h1, if_neg h7]
      simp

/-- Every opcode up to 0xA is a command's, with any value of the field it uses (R72, R79). -/
theorem exists_command_fields {op : BitVec 4} (h : op ≤ 0xA) (k : BitVec 2) (t : BitVec 3) :
    ∃ i : Instr, i.op = op ∧ i.ksize = (if op = 0x1 then k else 0) ∧ i.tsel = if op = 0x7 then t else 0 := by
  have hop : op = 0x0 ∨ op = 0x1 ∨ op = 0x2 ∨ op = 0x3 ∨ op = 0x4 ∨ op = 0x5 ∨ op = 0x6 ∨ op = 0x7 ∨ op = 0x8 ∨
      op = 0x9 ∨ op = 0xA := by
    revert op; decide
  obtain rfl | rfl | rfl | rfl | rfl | rfl | rfl | rfl | rfl | rfl | rfl := hop
  exacts [⟨.nop, rfl, rfl, rfl⟩, ⟨.aesKeyexp k, rfl, rfl, rfl⟩, ⟨.aesEnc, rfl, rfl, rfl⟩,
    ⟨.desKeysched, rfl, rfl, rfl⟩, ⟨.desEnc, rfl, rfl, rfl⟩, ⟨.gfMul, rfl, rfl, rfl⟩, ⟨.aesSubword, rfl, rfl, rfl⟩,
    ⟨.desPerm t, rfl, rfl, rfl⟩, ⟨.desSbox, rfl, rfl, rfl⟩, ⟨.aesMixcol, rfl, rfl, rfl⟩, ⟨.desF, rfl, rfl, rfl⟩]

/-- A well-formed word is the own word of a command (R75, R82). -/
theorem exists_eq_encode {v : Word} (h : wellformed v = true) : ∃ i, v = encode i := by
  obtain ⟨hop, hr⟩ := wellformed_iff.mp h
  obtain ⟨i, hi, hk, ht⟩ := exists_command_fields hop (ksizeField v) (tselField v)
  refine ⟨i, (eq_or_of_reservedPart hr).trans ?_⟩
  rw [encode, commandWord, hi, hk, ht, and_fieldsMask, BitVec.or_assoc]

/-- The words that decode are the well-formed ones (R75). -/
theorem exists_decode_iff_wellformed {v : Word} : (∃ i, decode v = .ok i) ↔ wellformed v = true := by
  refine ⟨fun ⟨_, h⟩ => wellformed_of_decode h, fun h => ?_⟩
  obtain ⟨i, rfl⟩ := exists_eq_encode h
  exact ⟨i, decode_encode i⟩

/-! ### The rows of the opcode table -/

/-- A row asks for its opcode and leaves exactly that opcode's fields free. -/
theorem opcodeTable_row {r : TableRow} (h : r ∈ opcodeTable) :
    r.mask = ~~~fieldsMask (opField r.pattern) ∧ r.pattern = (opField r.pattern).setWidth 32 := by
  revert r; decide

/-- The opcodes of the rows are those up to 0xA (R72, R77). -/
theorem exists_row_iff {op : BitVec 4} : (∃ r ∈ opcodeTable, opField r.pattern = op) ↔ op ≤ 0xA := by
  revert op; decide

/-- No opcode has two rows. -/
theorem row_eq_of_opField_eq {r r' : TableRow} (hr : r ∈ opcodeTable) (hr' : r' ∈ opcodeTable)
    (h : opField r.pattern = opField r'.pattern) : r = r' := by
  revert r'; revert r; decide

/-- A word that is an opcode alone has that opcode. -/
theorem opField_setWidth (op : BitVec 4) : opField (op.setWidth 32) = op := by
  revert op; decide

/-- A word that is an opcode alone has no bit outside OP. -/
theorem setWidth_and_not_opMask (op : BitVec 4) : op.setWidth 32 &&& ~~~(0xF : Word) = 0 := by
  revert op; decide

/-- A word that is an opcode alone has no bit in that opcode's fields. -/
theorem setWidth_and_not_fieldsMask (op : BitVec 4) : op.setWidth 32 &&& ~~~fieldsMask op = op.setWidth 32 := by
  revert op; decide

/-- Clearing an opcode's fields leaves OP. -/
theorem opField_and_not_fieldsMask (v : Word) (op : BitVec 4) : opField (v &&& ~~~fieldsMask op) = opField v := by
  have hmask : opField (~~~fieldsMask op) = BitVec.allOnes 4 := by revert op; decide
  calc
    opField (v &&& ~~~fieldsMask op) = opField v &&& opField (~~~fieldsMask op) := BitVec.extractLsb'_and
    _ = opField v := by rw [hmask, BitVec.and_allOnes]

/-- What is left of a word without an opcode's fields is the opcode alone exactly if the word has that opcode and no
reserved bit. -/
theorem and_not_fieldsMask_eq_iff {v : Word} {op : BitVec 4} :
    v &&& ~~~fieldsMask op = op.setWidth 32 ↔ opField v = op ∧ reservedPart v = 0 := by
  constructor
  · intro h
    have hop : opField v = op := by rw [← opField_and_not_fieldsMask v op, h, opField_setWidth]
    refine ⟨hop, ?_⟩
    calc
      reservedPart v = v &&& ~~~fieldsMask op &&& ~~~0xF := by
        rw [reservedPart, hop, BitVec.not_or, BitVec.and_comm (~~~_), BitVec.and_assoc]
      _ = 0 := by rw [h, setWidth_and_not_opMask]
  · rintro ⟨rfl, h⟩
    calc
      v &&& ~~~fieldsMask (opField v)
        = ((opField v).setWidth 32 ||| (v &&& fieldsMask (opField v))) &&& ~~~fieldsMask (opField v) :=
          congrArg (· &&& ~~~fieldsMask (opField v)) (eq_or_of_reservedPart h)
      _ = (opField v).setWidth 32 ||| (v &&& 0) := by
        rw [BitVec.and_or_distrib_right, setWidth_and_not_fieldsMask, BitVec.and_assoc, BitVec.and_not_self]
      _ = (opField v).setWidth 32 := by simp

/-- A word is in a row exactly if it has the row's opcode and no reserved bit (R78). -/
theorem row_matches_iff {v : Word} {r : TableRow} (hr : r ∈ opcodeTable) :
    v &&& r.mask = r.pattern ↔ opField v = opField r.pattern ∧ reservedPart v = 0 := by
  obtain ⟨hmask, hpattern⟩ := opcodeTable_row hr
  rw [hmask, ← and_not_fieldsMask_eq_iff, ← hpattern]

/-- The words of the table are the well-formed ones (R75, R78). -/
theorem exists_row_matches_iff {v : Word} :
    (∃ r ∈ opcodeTable, v &&& r.mask = r.pattern) ↔ wellformed v = true := by
  rw [wellformed_iff, ← exists_row_iff]
  constructor
  · rintro ⟨r, hr, h⟩
    obtain ⟨hop, hres⟩ := (row_matches_iff hr).mp h
    exact ⟨⟨r, hr, hop.symm⟩, hres⟩
  · rintro ⟨⟨r, hr, hop⟩, hres⟩
    exact ⟨r, hr, (row_matches_iff hr).mpr ⟨hop.symm, hres⟩⟩

end Sys2Proof

namespace Sys2Proof.Machine

/-! ### The obligations -/

/-- Settles O2: a word that decodes is well-formed, so it is the own word of some command, and it decodes to that one. -/
theorem decodeIsInverseOfEncode : Obligations.DecodeIsInverseOfEncode := by
  unfold Obligations.DecodeIsInverseOfEncode
  intro v i
  constructor
  · intro h
    obtain ⟨j, rfl⟩ := exists_eq_encode (wellformed_of_decode h)
    rw [Except.ok.inj ((decode_encode j).symm.trans h)]
  · rintro rfl
    exact decode_encode i

/-- Settles O3: both are the well-formed words, and a word in two rows has the opcode of both. -/
theorem decodedWordsAreTheTableRows : Obligations.DecodedWordsAreTheTableRows := by
  unfold Obligations.DecodedWordsAreTheTableRows
  intro v
  refine ⟨exists_decode_iff_wellformed.trans exists_row_matches_iff.symm, fun r hr r' hr' h h' => ?_⟩
  obtain ⟨hop, -⟩ := (row_matches_iff hr).mp h
  obtain ⟨hop', -⟩ := (row_matches_iff hr').mp h'
  exact row_eq_of_opField_eq hr hr' (hop.symm.trans hop')

/-- Settles O4: the formula is `wellformed`, and a word that does not decode is rejected at submission. -/
theorem illFormedWordsAreRejected : Obligations.IllFormedWordsAreRejected := by
  unfold Obligations.IllFormedWordsAreRejected
  intro v s rest op fields wf
  have hwf : (∃ i, decode v = .ok i) ↔ wf := exists_decode_iff_wellformed.trans wellformed_iff
  refine ⟨hwf, fun hbusy hnwf => ?_⟩
  cases hd : decode v with
  | ok i => exact absurd (hwf.mp ⟨i, hd⟩) hnwf
  | error e =>
    calc
      step { s with events := .write 0x000 4 v :: rest } = submit v { s with events := rest } :=
        hostWrite_ctrl (off := 0x000) (size := 4) (by decide) (by decide)
      _ = .next (rejected 1 { s with events := rest }) := submit_illegal hbusy hd

/-- Settles O1: the commands' words are read back, and each of the others meets one of the decoder's refusals. -/
theorem specWordsDecode : Obligations.SpecWordsDecode :=
  ⟨decode_encode .nop, decode_encode (.aesKeyexp 0), decode_encode (.aesKeyexp 1), decode_encode (.aesKeyexp 2),
    decode_encode (.aesKeyexp 3), decode_encode .aesEnc, decode_encode .desKeysched, decode_encode .desEnc,
    decode_encode .gfMul, decode_encode .aesSubword, decode_encode (.desPerm 5), decode_encode (.desPerm 7),
    decode_encode .desSbox, decode_encode .aesMixcol, decode_encode .desF, decode_reservedOpcode (by decide),
    decode_reservedOpcode (by decide), decode_reservedBits (by decide) (by decide),
    decode_reservedBits (by decide) (by decide), decode_reservedBits (by decide) (by decide)⟩

end Sys2Proof.Machine
end

section
/-! PROOF. Family 40_command_protocol.md. A submission is decided by checks on the word's fields; a completion is its
command's effect and the tail of `complete()`, and an output command's effect is one write of DOUT; from a state of the
invariant no step stops but on an access the spec does not define. -/

open Sys2Proof.Claims

namespace Sys2Proof.Machine

/-! ### Where the core stops -/

/-- A turn that is not defined is an access the spec does not define, and it faults (R54, R280). -/
theorem turn_of_not_defined {e : Event} (h : ¬e.Defined) (s : State) :
    ∃ off size, supported off size = false ∧ (e = .read off size ∨ ∃ v, e = .write off size v) ∧
      turn e s = .fault (.unsupportedAccess off size) := by
  cases e with
  | read off size =>
    cases hs : supported off size with
    | true => exact absurd ⟨by rintro _ _ ⟨⟩; exact hs, nofun⟩ h
    | false => exact ⟨off, size, hs, .inl rfl, hostRead_unsupported hs⟩
  | write off size v =>
    cases hs : supported off size with
    | true => exact absurd ⟨nofun, by rintro _ _ _ ⟨⟩; exact hs⟩ h
    | false => exact ⟨off, size, hs, .inr ⟨v, rfl⟩, hostWrite_unsupported hs⟩
  | reset | engine => exact absurd ⟨nofun, nofun⟩ h

/-- Settles O56: every defined turn goes on from a state of the invariant, and any other turn is an undefined access. -/
theorem onlyUndefinedAccessesStopTheCore : Obligations.OnlyUndefinedAccessesStopTheCore := by
  unfold Obligations.OnlyUndefinedAccessesStopTheCore
  intro s hi
  by_cases hd : (s.events.headD .engine).Defined
  · obtain ⟨t, ht, -⟩ := turn_of_inv (s := { s with events := s.events.tail }) hi hd
    exact .inl ⟨t, (step_eq_turn s).trans ht⟩
  · obtain ⟨off, size, hs, he, hfault⟩ := turn_of_not_defined hd { s with events := s.events.tail }
    refine .inr ⟨off, size, ⟨hs, ?_⟩, (step_eq_turn s).trans hfault⟩
    cases hev : s.events with
    | nil => exact absurd ⟨by simp [hev], by simp [hev]⟩ hd
    | cons e rest =>
      rw [hev, List.headD_cons] at he
      obtain rfl | ⟨v, rfl⟩ := he
      · exact .inl ⟨rest, rfl⟩
      · exact .inr ⟨v, rest, rfl⟩

/-! ### Submission -/

/-- A rejection, in the words of the statements: only BUSY has code 5 (R271, R272). -/
theorem reject_eq_rejected (code : ErrCode) (s : State) : reject code s = rejected code.code s := by
  cases code <;> rfl

/-- An acceptance, in the words of the statements (R103). -/
theorem accept_eq_accepted (i : Instr) (s : State) : accept i s = accepted i.op i.ksize i.tsel s := rfl

/-- A 32-bit write of offset 0 is a submission of its word (R53, R100). -/
theorem step_ctrl_write (s : State) (v : Word) (rest : List Event) :
    step { s with events := .write 0x000 4 v :: rest } = submit v { s with events := rest } :=
  hostWrite_ctrl (off := 0x000) (size := 4) (by decide) (by decide)

/-- A command with its fields in range and the schedule it needs passes its own check (R101). -/
theorem commandCheck_eq_none {i : Instr} {s : State} (hwf : i.wf = true) (haes : i = .aesEnc → s.aes_kv = true)
    (hdes : i = .desEnc → s.des_kv = true) : commandCheck i s = none := by
  cases i with
  | aesKeyexp k => simpa [commandCheck, Instr.wf] using hwf
  | aesEnc => simp [commandCheck, haes]
  | desEnc => simp [commandCheck, hdes]
  | desPerm t => simpa [commandCheck, Instr.wf] using hwf
  | nop | desKeysched | gfMul | aesSubword | desSbox | aesMixcol | desF => rfl

/-- Every command's word carries the command's fields (R71, R82). -/
theorem fields_of_encode (i : Instr) : Laws.Fields.Statement i :=
  match i with
  | .nop => Laws.Fields.nop
  | .aesKeyexp k => Laws.Fields.aesKeyexp k
  | .aesEnc => Laws.Fields.aesEnc
  | .desKeysched => Laws.Fields.desKeysched
  | .desEnc => Laws.Fields.desEnc
  | .gfMul => Laws.Fields.gfMul
  | .aesSubword => Laws.Fields.aesSubword
  | .desPerm t => Laws.Fields.desPerm t
  | .desSbox => Laws.Fields.desSbox
  | .aesMixcol => Laws.Fields.aesMixcol
  | .desF => Laws.Fields.desF

/-- A command's own check, by the fields of its word (R101). -/
theorem commandCheck_eq (i : Instr) (s : State) :
    commandCheck i s =
      if i.op = 0x1 ∧ i.ksize = 3 then some .invalidKeySize
      else if i.op = 0x2 ∧ s.aes_kv = false then some .noAesSchedule
      else if i.op = 0x4 ∧ s.des_kv = false then some .noDesSchedule
      else if i.op = 0x7 ∧ 6 ≤ i.tsel then some .invalidTable
      else none := by
  cases i with
  | aesKeyexp k => simp [commandCheck, Instr.op, Instr.ksize]
  | aesEnc => cases hkv : s.aes_kv <;> simp [commandCheck, Instr.op, hkv]
  | desEnc => cases hkv : s.des_kv <;> simp [commandCheck, Instr.op, hkv]
  | desPerm t => simp [commandCheck, Instr.op, Instr.tsel, ← BitVec.not_lt, ite_not]
  | nop | desKeysched | gfMul | aesSubword | desSbox | aesMixcol | desF => rfl

/-- What a submission decides, by the fields of the command's word (R101, R103). -/
theorem decided_eq (i : Instr) (s : State) :
    decided i (commandCheck i s) s =
      if i.op = 0x1 ∧ i.ksize = 3 then rejected 2 s
      else if i.op = 0x2 ∧ s.aes_kv = false then rejected 3 s
      else if i.op = 0x4 ∧ s.des_kv = false then rejected 4 s
      else if i.op = 0x7 ∧ 6 ≤ i.tsel then rejected 6 s
      else accepted i.op i.ksize i.tsel s := by
  rw [commandCheck_eq]
  split_ifs
  · exact reject_eq_rejected .invalidKeySize s
  · exact reject_eq_rejected .noAesSchedule s
  · exact reject_eq_rejected .noDesSchedule s
  · exact reject_eq_rejected .invalidTable s
  · exact accept_eq_accepted i s

/-- Settles O26: BUSY and ILLEGAL_CMD are decided before a command is known, and a well-formed word is the own word of the
command whose check comes next. -/
theorem submissionMakesItsChecksInOrder : Obligations.SubmissionMakesItsChecksInOrder := by
  unfold Obligations.SubmissionMakesItsChecksInOrder
  intro s v rest hi op ksize tsel t
  have hstep : step { s with events := .write 0x000 4 v :: rest } = submit v t := step_ctrl_write s v rest
  rw [hstep]
  cases hb : s.busy with
  | true =>
    rw [submit_busy (s := t) hb, reject_eq_rejected]
    rfl
  | false =>
    cases hwf : wellformed v with
    | false =>
      cases hd : decode v with
      | ok i => simp [wellformed_of_decode hd] at hwf
      | error e =>
        rw [submit_illegal (s := t) hb hd, reject_eq_rejected]
        rfl
    | true =>
      have hp : s.pend = none := by simpa [hb] using hi.busy_pend
      obtain ⟨i, rfl⟩ := exists_eq_encode hwf
      obtain ⟨hop, hk, ht, -⟩ : op = i.op ∧ ksize = i.ksize ∧ tsel = i.tsel ∧ _ := fields_of_encode i
      rw [hop, hk, ht]
      calc
        submit (encode i) t = exec i t := submit_command hb (decode_encode i)
        _ = .next (decided i (commandCheck i t) t) := exec_idle i hp
        _ = _ := congrArg _ (decided_eq i t)

/-- Settles O27: the check finds nothing, so the command is accepted. -/
theorem everyCommandIsAcceptedWhenItsCheckPasses : Obligations.EveryCommandIsAcceptedWhenItsCheckPasses := by
  unfold Obligations.EveryCommandIsAcceptedWhenItsCheckPasses
  intro i s hp hwf haes hdes
  rw [exec_idle i hp, commandCheck_eq_none hwf haes hdes]
  rfl

/-- A command whose own check finds a code is rejected with it on an idle core (R101, R272). -/
theorem exec_rejected {i : Instr} {s : State} {code : ErrCode} (hp : s.pend = none)
    (hc : commandCheck i s = some code) : exec i s = .next (rejected code.code s) := by
  rw [exec_idle i hp, hc, ← reject_eq_rejected]
  rfl

/-- Settles O28: the code each check finds. -/
theorem commandsAreRejectedByTheirOwnChecks : Obligations.CommandsAreRejectedByTheirOwnChecks := by
  unfold Obligations.CommandsAreRejectedByTheirOwnChecks
  intro s hp
  have haes (h : s.aes_kv = false) : commandCheck .aesEnc s = some .noAesSchedule := by simp [commandCheck, h]
  have hdes (h : s.des_kv = false) : commandCheck .desEnc s = some .noDesSchedule := by simp [commandCheck, h]
  exact ⟨exec_rejected (code := .invalidKeySize) hp rfl, fun h => exec_rejected hp (haes h),
    fun h => exec_rejected hp (hdes h), exec_rejected (code := .invalidTable) hp rfl,
    exec_rejected (code := .invalidTable) hp rfl⟩

/-- Settles O51: BUSY and ILLEGAL_CMD do not apply, so the submission is the command's step. -/
theorem stepRunsTheCommandWritten : Obligations.StepRunsTheCommandWritten := by
  unfold Obligations.StepRunsTheCommandWritten
  intro s v i rest hb hd
  exact (step_ctrl_write s v rest).trans (submit_command hb hd)

/-- Settles O52: both steps are the engine's turn. -/
theorem stepRunsThePendingCommand : Obligations.StepRunsThePendingCommand := by
  unfold Obligations.StepRunsThePendingCommand
  intro s rest
  exact ⟨fun p i hp hd => ⟨engineTurn_command hp hd, engineTurn_command hp hd⟩,
    fun hp => ⟨engineTurn_idle hp, engineTurn_idle hp⟩⟩

/-! ### Completion, command by command -/

/-- A pending command whose effect is a write of DOUT completes with that write (R104, R105). -/
theorem exec_writesDout {i : Instr} {s : State} {p : Pending} {d : Vector Word 4} (hp : s.pend = some p)
    (he : commandEffect i p s = .next (writeDout d s)) : exec i s = .next (completed { s with dout := d }) :=
  (exec_pending i hp he).trans (congrArg _ (retire_writeDout d s))

/-- Settles O30: NOP has no effect of its own. -/
theorem nopCompletes : Obligations.NopCompletes := by
  unfold Obligations.NopCompletes
  intro s p hp
  exact exec_pending .nop hp rfl

/-- Settles O31: the record's key size is one that exists, so the effect is the store of its schedule. -/
theorem aesKeyexpCompletes : Obligations.AesKeyexpCompletes := by
  unfold Obligations.AesKeyexpCompletes
  rintro s p k hp rfl hk nk w
  have hlen : w.length = scheduleWords p.ksize := (List.length_map _).symm.trans (aesSchedule_length hk)
  exact ⟨hlen, exec_pending (.aesKeyexp p.ksize) hp (if_neg hk)⟩

/-- The words of a run of RK that all hold values are read (R182). -/
theorem readRk_of_entries {s : State} {vs : List Word} (h : ∀ i (hi : i < vs.length), s.rk[i]? = some (some vs[i])) :
    readRk vs.length s = .ok vs := by
  have hentries : ((List.range vs.length).map fun i => s.rk.toList.getD i none) = vs.map some := by
    refine List.ext_getElem (by simp) fun i hi _ => ?_
    simp [h i (by simpa using hi)]
  rw [readRk, hentries, storeValues_some]

/-- The round count `nr(k) = 10 + 2·k` (R73). -/
theorem nrOf_eq (k : BitVec 2) : nrOf k = 10 + 2 * k.toNat := by
  simp only [nrOf, nkOf]
  omega

/-- Settles O32: the packed schedule is read back and unpacked. -/
theorem aesEncCompletes : Obligations.AesEncCompletes := by
  unfold Obligations.AesEncCompletes
  intro s p w hp nr hlen hrk
  have hread : readRk (scheduleWords s.aes_ks) s = .ok (w.map pack) := by
    have hcount : scheduleWords s.aes_ks = (w.map pack).length := by
      rw [List.length_map, hlen, scheduleWords_eq]
    rw [hcount]
    refine readRk_of_entries fun i hi => ?_
    have hi : i < w.length := by simpa using hi
    rw [hrk i (hlen ▸ hi)]
    simp [wordAt, hi]
  have hid : bytes ∘ pack = id := funext bytes_pack
  have hbytes : (w.map pack).map bytes = w := by rw [List.map_map, hid, List.map_id]
  rw [exec_aesEnc_of_readRk hp hread, hbytes, nrOf_eq]

/-- Settles O33: the effect is the store of the subkeys. -/
theorem desKeyschedCompletes : Obligations.DesKeyschedCompletes := by
  unfold Obligations.DesKeyschedCompletes
  intro s p hp k
  exact exec_pending .desKeysched hp rfl

/-- Settles O34: the sixteen subkeys are read back. -/
theorem desEncCompletes : Obligations.DesEncCompletes := by
  unfold Obligations.DesEncCompletes
  intro s p k hp hsk c
  have hread : readSk s = .ok k.toList := by rw [readSk, hsk, Vector.toList_map, storeValues_some]
  exact exec_desEnc_of_readSk hp hread

/-- Settles O35: the effect is a write of the product. -/
theorem gfMulCompletes : Obligations.GfMulCompletes := by
  unfold Obligations.GfMulCompletes
  intro s p hp
  exact exec_writesDout hp rfl

/-- Settles O36: the effect is a write of the four substituted bytes. -/
theorem aesSubwordCompletes : Obligations.AesSubwordCompletes := by
  unfold Obligations.AesSubwordCompletes
  intro s p hp v
  exact exec_writesDout hp rfl

/-- The MixColumns map of one column, row by row of the matrix (R143, R177). -/
theorem mixColumn_eq (a : AesWord) :
    mixColumn a = #v[gfMul 2 a[0] ^^^ gfMul 3 a[1] ^^^ gfMul 1 a[2] ^^^ gfMul 1 a[3],
      gfMul 1 a[0] ^^^ gfMul 2 a[1] ^^^ gfMul 3 a[2] ^^^ gfMul 1 a[3],
      gfMul 1 a[0] ^^^ gfMul 1 a[1] ^^^ gfMul 2 a[2] ^^^ gfMul 3 a[3],
      gfMul 3 a[0] ^^^ gfMul 1 a[1] ^^^ gfMul 1 a[2] ^^^ gfMul 2 a[3]] :=
  rfl

/-- Settles O37: the effect is a write of the mixed column. -/
theorem aesMixcolCompletes : Obligations.AesMixcolCompletes := by
  unfold Obligations.AesMixcolCompletes
  intro s p hp a
  have heff : commandEffect .aesMixcol p s = .next (writeDout (result32 (pack (mixColumn a))) s) := rfl
  rw [mixColumn_eq] at heff
  exact exec_writesDout hp heff

/-- Settles O38: TSEL selects its row of R74, and the effect is a write of that table's output. -/
theorem desPermCompletes : Obligations.DesPermCompletes := by
  unfold Obligations.DesPermCompletes
  rintro s p t table nIn hp rfl hrow y z
  have htable : permTable p.tsel = some (table, nIn) := by
    generalize p.tsel = t at hrow ⊢
    simp only [List.mem_cons, Prod.mk.injEq, List.not_mem_nil, or_false] at hrow
    obtain ⟨rfl, rfl, rfl⟩ | ⟨rfl, rfl, rfl⟩ | ⟨rfl, rfl, rfl⟩ | ⟨rfl, rfl, rfl⟩ | ⟨rfl, rfl, rfl⟩ |
      ⟨rfl, rfl, rfl⟩ := hrow <;> rfl
  refine exec_writesDout hp (d := result64 z) ?_
  simp [commandEffect, permEffect, htable, permResult, pair64, y, z]

/-- Settles O39: the effect is a write of the S-box layer. -/
theorem desSboxCompletes : Obligations.DesSboxCompletes := by
  unfold Obligations.DesSboxCompletes
  intro s p hp x
  exact exec_writesDout hp rfl

/-- Settles O40: the effect is a write of the round function. -/
theorem desFCompletes : Obligations.DesFCompletes := by
  unfold Obligations.DesFCompletes
  intro s p hp k f
  exact exec_writesDout hp rfl

/-! ### What a completion changes, and on what it depends -/

/-- A completion that goes on is its command's effect and the tail of `complete()` (R104). -/
theorem exec_pending_next {i : Instr} {s t : State} {p : Pending} (hp : s.pend = some p) (h : exec i s = .next t) :
    ∃ u, commandEffect i p s = .next u ∧ t = retire u := by
  obtain ⟨hnone, -⟩ | ⟨hnone, -⟩ | ⟨q, u, hq, hu, rfl⟩ := exec_next h
  · cases hp.symm.trans hnone
  · cases hp.symm.trans hnone
  · obtain rfl := Option.some.inj (hp.symm.trans hq)
    exact ⟨u, hu, rfl⟩

/-- NOP and the two commands that write a store are no output commands (R105). -/
theorem not_isOutput {i : Instr} (h : i = .nop ∨ (∃ k, i = .aesKeyexp k) ∨ i = .desKeysched) : ¬IsOutput i := by
  obtain rfl | ⟨k, rfl⟩ | rfl := h <;> simp [IsOutput]

/-- The effect of an output command is a write of DOUT (R105). -/
theorem commandEffect_output {i : Instr} {p : Pending} {s u : State} (hi : IsOutput i)
    (h : commandEffect i p s = .next u) : ∃ d, u = writeDout d s := by
  obtain ⟨hn, -⟩ | ⟨d, hu, -⟩ | ⟨hk, -⟩ | ⟨hk, -⟩ := commandEffect_next h
  · exact absurd hi (not_isOutput (.inl hn))
  · exact ⟨d, hu⟩
  · exact absurd hi (not_isOutput (.inr (.inl hk)))
  · exact absurd hi (not_isOutput (.inr (.inr hk)))

/-- A completion leaves KEY, DIN, ERR, ERRCODE and the model's own fields alone (R104). -/
theorem retire_sameButResults {i : Instr} {p : Pending} {s u : State} (h : commandEffect i p s = .next u) :
    SameButResults s (retire u) := by
  obtain ⟨-, rfl⟩ | ⟨d, rfl, -⟩ | ⟨-, -, rfl⟩ | ⟨-, rfl⟩ := commandEffect_next h <;>
    exact ⟨rfl, rfl, rfl, rfl, rfl, rfl, rfl⟩

/-- A state with the same KEY and DIN shows the same window but for STATUS and DOUT (R51, R52). -/
theorem sameWindow_of_sameButResults {s t : State} (h : SameButResults s t) : SameWindow s t := by
  obtain ⟨hkey, hdin, -⟩ := h
  intro r hstatus hdout
  cases r with
  | status => exact absurd rfl hstatus
  | dout i => exact absurd rfl (hdout i)
  | key i => simp [peek, hkey]
  | din i => simp [peek, hdin]
  | ctrl | reserved => rfl

/-- Settles O42: the effect is a write of DOUT, and the tail of `complete()` changes BUSY, DONE and `pend`. -/
theorem outputCommandsChangeOnlyDout : Obligations.OutputCommandsChangeOnlyDout := by
  unfold Obligations.OutputCommandsChangeOnlyDout
  intro i s t p hi hp h
  obtain ⟨u, hu, rfl⟩ := exec_pending_next hp h
  have hsame : SameButResults s (retire u) := retire_sameButResults hu
  have hwindow : SameWindow s (retire u) := sameWindow_of_sameButResults hsame
  obtain ⟨d, rfl⟩ := commandEffect_output hi hu
  exact ⟨hsame, ⟨rfl, rfl, rfl⟩, ⟨rfl, rfl⟩, hwindow, rfl, rfl, rfl⟩

/-- Settles O43: the effect is none, or the store of the one schedule. -/
theorem nonOutputCommandsKeepDout : Obligations.NonOutputCommandsKeepDout := by
  unfold Obligations.NonOutputCommandsKeepDout
  intro i s t p hi hp h
  obtain ⟨u, hu, rfl⟩ := exec_pending_next hp h
  have hsame : SameButResults s (retire u) := retire_sameButResults hu
  have hwindow : SameWindow s (retire u) := sameWindow_of_sameButResults hsame
  obtain ⟨-, rfl⟩ | ⟨d, -, hd⟩ | ⟨hk, -, rfl⟩ | ⟨hk, rfl⟩ := commandEffect_next hu
  · exact ⟨hsame, hwindow, rfl, rfl, rfl, rfl, .inr ⟨rfl, rfl, rfl⟩, .inr ⟨rfl, rfl⟩⟩
  · obtain rfl | ⟨k, rfl⟩ | rfl := hi <;> simp at hd
  · exact ⟨hsame, hwindow, rfl, rfl, rfl, rfl, .inl hk, .inr ⟨rfl, rfl⟩⟩
  · exact ⟨hsame, hwindow, rfl, rfl, rfl, rfl, .inr ⟨rfl, rfl, rfl⟩, .inl hk⟩

/-- A diagnostic command with a result of 32 bits writes a word that its record alone decides (R106, R240). -/
theorem commandEffect_word {i : Instr} (hi : i ∈ [.gfMul, .aesSubword, .desSbox, .aesMixcol, .desF]) (p : Pending) :
    ∃ v, ∀ s, commandEffect i p s = .next (writeDout (result32 v) s) := by
  simp only [List.mem_cons, List.not_mem_nil, or_false] at hi
  obtain rfl | rfl | rfl | rfl | rfl := hi <;> exact ⟨_, fun _ => rfl⟩

/-- DES_PERM writes a 64-bit value that its record alone decides (R106, R244). -/
theorem permEffect_next (p : Pending) : ∃ z, ∀ s u, permEffect p s = .next u → u = writeDout (result64 z) s := by
  cases ht : permTable p.tsel with
  | none => exact ⟨0, fun s u h => by simp [permEffect, ht] at h⟩
  | some table => exact ⟨permResult table.1 table.2 p.din, fun s u h => by simpa [permEffect, ht] using h.symm⟩

/-- DES_ENC writes a 64-bit value that its record and the subkeys decide (R106, R217). -/
theorem desEncEffect_next {p : Pending} {s u : State} (h : desEncEffect p s = .next u) :
    ∃ k, readSk s = .ok k ∧ u = writeDout (result64 (BitVec.ofNat 64
      (val (desEncrypt (bitseq (pair64 p.din[0] p.din[1])) (k.map bitseq))))) s := by
  cases hk : readSk s with
  | error e => simp [desEncEffect, hk] at h
  | ok k => exact ⟨k, rfl, by simpa [desEncEffect, hk] using h.symm⟩

/-- AES_ENC writes a block that its record and the schedule decide (R182). -/
theorem aesEncEffect_next {p : Pending} {s u : State} (h : aesEncEffect p s = .next u) :
    ∃ w, readRk (scheduleWords s.aes_ks) s = .ok w ∧
      u = writeDout (aesBlockWords (cipher (aesBlock p.din) (nrOf s.aes_ks) (w.map bytes))) s := by
  cases hw : readRk (scheduleWords s.aes_ks) s with
  | error e => simp [aesEncEffect, hw] at h
  | ok w => exact ⟨w, rfl, by simpa [aesEncEffect, hw] using h.symm⟩

/-- AES_KEYEXP stores a schedule that its record alone decides (R181). -/
theorem keyexpEffect_next {p : Pending} {s u : State} (h : keyexpEffect p s = .next u) :
    u = { s with rk := rkOf (aesSchedule p), aes_kv := true, aes_ks := p.ksize } := by
  by_cases hk : p.ksize = 3
  · simp [keyexpEffect, hk] at h
  · exact Host.Outcome.next.inj (h.symm.trans (if_neg hk))

/-- Settles O44: the result is a word or a 64-bit value with zero words after it. -/
theorem narrowResultsClearTheOtherDoutWords : Obligations.NarrowResultsClearTheOtherDoutWords := by
  unfold Obligations.NarrowResultsClearTheOtherDoutWords
  intro i s t p hp h
  obtain ⟨u, hu, rfl⟩ := exec_pending_next hp h
  refine ⟨fun hi => ?_, fun hi => ?_⟩
  · obtain ⟨v, hv⟩ := commandEffect_word hi p
    obtain rfl := Host.Outcome.next.inj ((hv s).symm.trans hu)
    exact ⟨rfl, rfl, rfl⟩
  · obtain ⟨z, rfl⟩ : ∃ z, u = writeDout (result64 z) s := by
      obtain rfl | ⟨k, rfl⟩ := hi
      · obtain ⟨k, -, hk⟩ := desEncEffect_next hu
        exact ⟨_, hk⟩
      · obtain ⟨z, hz⟩ := permEffect_next p
        exact ⟨z, hz s u hu⟩
    exact ⟨rfl, rfl⟩

/-- The DOUT an output command's effect leaves is decided by its record and, for the two encryptions, by the store
(R108). -/
theorem commandEffect_dout_congr {i : Instr} {p : Pending} {s s' u u' : State} (hi : IsOutput i)
    (haes : i = .aesEnc → s.rk = s'.rk ∧ s.aes_ks = s'.aes_ks) (hdes : i = .desEnc → s.sk = s'.sk)
    (h : commandEffect i p s = .next u) (h' : commandEffect i p s' = .next u') : u.dout = u'.dout := by
  cases i with
  | aesEnc =>
    obtain ⟨hrk, hks⟩ := haes rfl
    obtain ⟨w, hw, rfl⟩ := aesEncEffect_next h
    obtain ⟨w', hw', rfl⟩ := aesEncEffect_next h'
    have hread : readRk (scheduleWords s.aes_ks) s = readRk (scheduleWords s'.aes_ks) s' := by
      rw [readRk, readRk, hrk, hks]
    obtain rfl : w = w' := Except.ok.inj (hw.symm.trans (hread.trans hw'))
    rw [writeDout_dout, writeDout_dout, hks]
  | desEnc =>
    obtain ⟨k, hk, rfl⟩ := desEncEffect_next h
    obtain ⟨k', hk', rfl⟩ := desEncEffect_next h'
    have hread : readSk s = readSk s' := by rw [readSk, readSk, hdes rfl]
    obtain rfl : k = k' := Except.ok.inj (hk.symm.trans (hread.trans hk'))
    rfl
  | desPerm t =>
    obtain ⟨z, hz⟩ := permEffect_next p
    obtain rfl := hz s u h
    obtain rfl := hz s' u' h'
    rfl
  | gfMul | aesSubword | desSbox | aesMixcol | desF =>
    obtain rfl := Host.Outcome.next.inj h
    obtain rfl := Host.Outcome.next.inj h'
    rfl
  | nop => exact absurd hi (not_isOutput (.inl rfl))
  | aesKeyexp k => exact absurd hi (not_isOutput (.inr (.inl ⟨k, rfl⟩)))
  | desKeysched => exact absurd hi (not_isOutput (.inr (.inr rfl)))

/-- Settles O46: DOUT by its own lemma; each schedule is made from the record alone. -/
theorem completionDependsOnlyOnSnapshotAndStore : Obligations.CompletionDependsOnlyOnSnapshotAndStore := by
  unfold Obligations.CompletionDependsOnlyOnSnapshotAndStore
  intro i s s' t t' p hp hp' haes hdes h h'
  obtain ⟨u, hu, rfl⟩ := exec_pending_next hp h
  obtain ⟨u', hu', rfl⟩ := exec_pending_next hp' h'
  have hdout (hi : IsOutput i) : u.dout = u'.dout := commandEffect_dout_congr hi haes hdes hu hu'
  refine ⟨hdout, ?_, ?_⟩
  · rintro ⟨k, rfl⟩
    obtain rfl := keyexpEffect_next hu
    obtain rfl := keyexpEffect_next hu'
    exact ⟨rfl, rfl, rfl⟩
  · rintro rfl
    obtain rfl := Host.Outcome.next.inj hu
    obtain rfl := Host.Outcome.next.inj hu'
    exact ⟨rfl, rfl⟩

end Sys2Proof.Machine
end

section
/-! PROOF. Family 41_leaf_units.md. Sequences are read entry by entry; `gf_mul` is additive in both operands and takes
doubling out of either, so what XOR and doubling keep need only hold of 1. -/

open Sys2Proof.Claims

namespace Sys2Proof.Machine

/-! ### Bytes as sums of powers -/

/-- The byte's bits, each shifted to its place, added up. -/
def bitSum (a : Byte) : Byte :=
  (List.finRange 8).foldl (fun s (k : Fin 8) => if a.getLsbD k then s ^^^ BitVec.twoPow 8 k else s) 0

theorem bitSum_eq (a : Byte) : bitSum a = a := by
  revert a
  decide

/-- What holds of the eight single bits and is kept by XOR holds of every byte. -/
theorem xor_induction {P : Byte → Prop} (pow : ∀ k : Fin 8, P (BitVec.twoPow 8 k))
    (xor : ∀ a b, P a → P b → P (a ^^^ b)) (a : Byte) : P a := by
  have zero : P 0 := xor _ _ (pow 0) (pow 0)
  rw [← bitSum_eq a]
  refine List.foldlRecOn _ _ zero fun s hs k _ => ?_
  split
  · exact xor _ _ hs (pow k)
  · exact hs

/-! ### Multiplication in GF(2^8) -/

/-- The doubling in a turn of `gf_mul`: multiplication by x, reduced (R125). -/
def gfDouble (m : Byte) : Byte := if m.getLsbD 7 then (m <<< 1) ^^^ Tables.reduction else m <<< 1

/-- One turn of the loop of `gf_mul` (R125). -/
theorem gfLoop_succ (k : Nat) (p m n : Byte) :
    gfLoop (k + 1) p m n = gfLoop k (if n.getLsbD 0 then p ^^^ m else p) (gfDouble m) (n >>> 1) := rfl

/-- Adding a summand on a condition is additive in the accumulator and the summand. -/
theorem ite_xor_summand {w : Nat} (c : Bool) (p p' m m' : BitVec w) :
    (if c then (p ^^^ p') ^^^ (m ^^^ m') else p ^^^ p') =
      (if c then p ^^^ m else p) ^^^ (if c then p' ^^^ m' else p') := by
  cases c
  · rfl
  · simp only [if_true]
    ac_rfl

/-- A summand added twice drops out. -/
theorem xor_cancel_common {w : Nat} (p p' m : BitVec w) : (p ^^^ m) ^^^ (p' ^^^ m) = p ^^^ p' := by
  calc (p ^^^ m) ^^^ (p' ^^^ m) = (p ^^^ p') ^^^ (m ^^^ m) := by ac_rfl
    _ = p ^^^ p' := by rw [BitVec.xor_self, BitVec.xor_zero]

/-- Adding a summand on a condition is additive in the accumulator and the condition. -/
theorem ite_xor_condition {w : Nat} (c c' : Bool) (p p' m : BitVec w) :
    (if c ^^ c' then (p ^^^ p') ^^^ m else p ^^^ p') =
      (if c then p ^^^ m else p) ^^^ (if c' then p' ^^^ m else p') := by
  cases c <;> cases c'
  · rfl
  · exact BitVec.xor_assoc ..
  · simp only [Bool.xor_false, if_true, Bool.false_eq_true, if_false]
    ac_rfl
  · exact (xor_cancel_common p p' m).symm

/-- Doubling is additive. -/
theorem gfDouble_xor (a b : Byte) : gfDouble (a ^^^ b) = gfDouble a ^^^ gfDouble b := by
  simp only [gfDouble, BitVec.getLsbD_xor, BitVec.shiftLeft_xor_distrib, ite_xor_condition]

/-- The loop is additive in the accumulator and the first operand. -/
theorem gfLoop_xor_left (k : Nat) (p p' m m' n : Byte) :
    gfLoop k (p ^^^ p') (m ^^^ m') n = gfLoop k p m n ^^^ gfLoop k p' m' n := by
  induction k generalizing p p' m m' n with
  | zero => rfl
  | succ k ih => rw [gfLoop_succ, gfLoop_succ, gfLoop_succ, gfDouble_xor, ite_xor_summand, ih]

/-- The loop is additive in the accumulator and the second operand. -/
theorem gfLoop_xor_right (k : Nat) (p p' m n n' : Byte) :
    gfLoop k (p ^^^ p') m (n ^^^ n') = gfLoop k p m n ^^^ gfLoop k p' m n' := by
  induction k generalizing p p' m n n' with
  | zero => rfl
  | succ k ih =>
    rw [gfLoop_succ, gfLoop_succ, gfLoop_succ, BitVec.getLsbD_xor, ite_xor_condition, BitVec.ushiftRight_xor_distrib,
      ih]

/-- Doubling is additive, so it can be taken out of every turn of the loop. -/
theorem gfLoop_double (k : Nat) (p m n : Byte) :
    gfLoop k (gfDouble p) (gfDouble m) n = gfDouble (gfLoop k p m n) := by
  induction k generalizing p m n with
  | zero => rfl
  | succ k ih => rw [gfLoop_succ, gfLoop_succ, ← gfDouble_xor, ← apply_ite gfDouble, ih]

theorem gfMul_xor_left (a b n : Byte) : gfMul (a ^^^ b) n = gfMul a n ^^^ gfMul b n := gfLoop_xor_left 8 0 0 a b n

theorem gfMul_xor_right (m a b : Byte) : gfMul m (a ^^^ b) = gfMul m a ^^^ gfMul m b := gfLoop_xor_right 8 0 0 m a b

theorem gfMul_double_left (m n : Byte) : gfMul (gfDouble m) n = gfDouble (gfMul m n) := gfLoop_double 8 0 m n

theorem gfMul_zero (m : Byte) : gfMul m 0 = 0 := by simpa using gfMul_xor_right m 0 0

theorem one_gfMul (n : Byte) : gfMul 1 n = n := by
  induction n using xor_induction with
  | pow k => revert k; decide
  | xor a b ha hb => rw [gfMul_xor_right, ha, hb]

/-- What holds of 1 and is kept by XOR and doubling holds of every byte. -/
theorem double_induction {P : Byte → Prop} (one : P 1) (double : ∀ a, P a → P (gfDouble a))
    (xor : ∀ a b, P a → P b → P (a ^^^ b)) (a : Byte) : P a := by
  have hdouble : ∀ k < 7, BitVec.twoPow 8 (k + 1) = gfDouble (BitVec.twoPow 8 k) := by decide
  refine xor_induction (fun ⟨k, hk⟩ => ?_) xor a
  induction k with
  | zero => exact one
  | succ k ih =>
    rw [hdouble k (by omega)]
    exact double _ (ih (by omega))

theorem gfMul_double_right (m n : Byte) : gfMul m (gfDouble n) = gfDouble (gfMul m n) := by
  induction m using double_induction with
  | one => rw [one_gfMul, one_gfMul]
  | double a ha => rw [gfMul_double_left, gfMul_double_left, ha]
  | xor a b ha hb => rw [gfMul_xor_left, gfMul_xor_left, gfDouble_xor, ha, hb]

theorem gfMul_one (m : Byte) : gfMul m 1 = m := by
  induction m using double_induction with
  | one => exact one_gfMul 1
  | double a ha => rw [gfMul_double_left, ha]
  | xor a b ha hb => rw [gfMul_xor_left, ha, hb]

theorem gfMul_comm (m n : Byte) : gfMul m n = gfMul n m := by
  induction m using double_induction with
  | one => rw [one_gfMul, gfMul_one]
  | double a ha => rw [gfMul_double_left, gfMul_double_right, ha]
  | xor a b ha hb => rw [gfMul_xor_left, gfMul_xor_right, ha, hb]

theorem gfMul_assoc (a b c : Byte) : gfMul (gfMul a b) c = gfMul a (gfMul b c) := by
  induction a using double_induction with
  | one => rw [one_gfMul, one_gfMul]
  | double a ha => rw [gfMul_double_left, gfMul_double_left, gfMul_double_left, ha]
  | xor a a' ha ha' => rw [gfMul_xor_left, gfMul_xor_left, gfMul_xor_left, ha, ha']

/-- Settles O8: the laws are additivity and the unit; 2 is the double of 1, and 3 is 2 with 1 added. -/
theorem gfMulObeysItsLaws : Obligations.GfMulObeysItsLaws := by
  unfold Obligations.GfMulObeysItsLaws
  have two (m : Byte) : gfMul 2 m = gfDouble m := (gfMul_double_left 1 m).trans (by rw [one_gfMul])
  refine ⟨fun x => ⟨gfMul_one x, gfMul_zero x⟩, gfMul_xor_right, fun m => ?_, fun m => ?_⟩
  · rw [two, gfDouble]
    split
    · rfl
    · exact (BitVec.xor_zero ..).symm
  · exact (gfMul_xor_left 2 1 m).trans (by rw [one_gfMul])

/-! ### The remainder of the polynomial product -/

theorem polyMul_xor_left (a a' b : BitVec 16) : polyMul (a ^^^ a') b = polyMul a b ^^^ polyMul a' b := by
  refine List.foldl_hom₂ _ (· ^^^ ·) _ _ _ (0 : BitVec 16) 0 fun p p' i => ?_
  rw [BitVec.shiftLeft_xor_distrib, ite_xor_summand]

theorem polyMul_xor_right (a b b' : BitVec 16) : polyMul a (b ^^^ b') = polyMul a b ^^^ polyMul a b' := by
  refine List.foldl_hom₂ _ (· ^^^ ·) _ _ _ (0 : BitVec 16) 0 fun p p' i => ?_
  rw [BitVec.getLsbD_xor, ite_xor_condition]

/-- The byte `r` is what division by `x^8 + x^4 + x^3 + x + 1` leaves of the polynomial `a` (R126, R144). -/
def HasRemainder (a : BitVec 16) (r : Byte) : Prop :=
  ∃ q : Byte, a = polyMul (q.setWidth 16) 0x11B ^^^ r.setWidth 16

theorem HasRemainder.xor {a a' : BitVec 16} {r r' : Byte} (h : HasRemainder a r) (h' : HasRemainder a' r') :
    HasRemainder (a ^^^ a') (r ^^^ r') := by
  obtain ⟨q, rfl⟩ := h
  obtain ⟨q', rfl⟩ := h'
  refine ⟨q ^^^ q', ?_⟩
  simp only [BitVec.setWidth_xor, polyMul_xor_left]
  ac_rfl

/-- The quotient by `x^8 + x^4 + x^3 + x + 1` of a product of two bytes: the high byte of the product's own high byte
times the modulus, which has no term between `x^8` and `x^4`. -/
def productQuotient (a : BitVec 16) : Byte := (polyMul (a >>> 8) 0x11B).extractLsb' 8 8

/-- On two single bits, `gf_mul` is the remainder of the product. -/
theorem hasRemainder_twoPow (i j : Fin 8) :
    HasRemainder (polyMul ((BitVec.twoPow 8 i).setWidth 16) ((BitVec.twoPow 8 j).setWidth 16))
      (gfMul (BitVec.twoPow 8 i) (BitVec.twoPow 8 j)) := by
  refine ⟨productQuotient (polyMul ((BitVec.twoPow 8 i).setWidth 16) ((BitVec.twoPow 8 j).setWidth 16)), ?_⟩
  revert i j
  decide

/-- `gf_mul` is the remainder of the product: both are additive in each operand. -/
theorem hasRemainder_gfMul (m n : Byte) : HasRemainder (polyMul (m.setWidth 16) (n.setWidth 16)) (gfMul m n) := by
  induction m using xor_induction with
  | pow i =>
    induction n using xor_induction with
    | pow j => exact hasRemainder_twoPow i j
    | xor a b ha hb => simpa only [BitVec.setWidth_xor, polyMul_xor_right, gfMul_xor_right] using ha.xor hb
  | xor a b ha hb => simpa only [BitVec.setWidth_xor, polyMul_xor_left, gfMul_xor_left] using ha.xor hb

/-! ### Inverses -/

/-- The power of a byte in GF(2^8). -/
def gfPow (m : Byte) : Nat → Byte
  | 0 => 1
  | k + 1 => gfMul (gfPow m k) m

theorem gfPow_add (m : Byte) (j k : Nat) : gfPow m (j + k) = gfMul (gfPow m j) (gfPow m k) := by
  induction k with
  | zero => exact (gfMul_one _).symm
  | succ k ih => rw [← Nat.add_assoc, gfPow, gfPow, ih, gfMul_assoc]

/-- The square of a byte in GF(2^8). -/
def gfSquare (m : Byte) : Byte := gfMul m m

/-- Squaring is additive, as in every ring of characteristic 2. -/
theorem gfSquare_xor (a b : Byte) : gfSquare (a ^^^ b) = gfSquare a ^^^ gfSquare b := by
  simp only [gfSquare, gfMul_xor_left, gfMul_xor_right, gfMul_comm b a]
  rw [BitVec.xor_comm (gfMul a b), xor_cancel_common]

theorem gfPow_two_pow (m : Byte) (k : Nat) : gfPow m (2 ^ k) = gfSquare^[k] m := by
  induction k with
  | zero => exact one_gfMul m
  | succ k ih => rw [Nat.pow_succ, Nat.mul_two, gfPow_add, ih, Function.iterate_succ_apply', gfSquare]

/-- Every byte is its own 256th power: eight squarings are additive, and they fix the eight single bits. -/
theorem gfPow_256 (m : Byte) : gfPow m 256 = m := by
  refine (gfPow_two_pow m 8).trans ?_
  induction m using xor_induction with
  | pow k => revert k; decide +kernel
  | xor a b ha hb => exact (Function.Semiconj₂.iterate gfSquare_xor 8 a b).trans (congrArg₂ _ ha hb)

theorem eq_zero_or_one_of_gfSquare_eq : ∀ e, gfSquare e = e → e = 0 ∨ e = 1 := by decide

/-- The 255th power of a byte is its own square, so it is 0 or 1; it is not 0, as the byte is the byte times it. -/
theorem gfPow_255 {m : Byte} (hm : m ≠ 0) : gfPow m 255 = 1 := by
  have hsquare : gfSquare (gfPow m 255) = gfPow m 255 :=
    calc gfSquare (gfPow m 255) = gfPow m (256 + 254) := (gfPow_add m 255 255).symm
      _ = gfMul m (gfPow m 254) := by rw [gfPow_add, gfPow_256]
      _ = gfPow m 255 := gfMul_comm _ _
  refine (eq_zero_or_one_of_gfSquare_eq _ hsquare).resolve_left fun hzero => hm ?_
  calc m = gfMul (gfPow m 255) m := (gfPow_256 m).symm
    _ = 0 := by rw [hzero, gfMul_comm, gfMul_zero]

/-- Every nonzero byte has an inverse, its 254th power. -/
theorem gfMul_gfPow_254 {m : Byte} (hm : m ≠ 0) : gfMul m (gfPow m 254) = 1 := (gfMul_comm _ _).trans (gfPow_255 hm)

theorem gfMul_eq_zero_iff {m n : Byte} : gfMul m n = 0 ↔ m = 0 ∨ n = 0 := by
  refine ⟨fun h => or_iff_not_imp_left.mpr fun hm => ?_, ?_⟩
  · calc n = gfMul (gfMul (gfPow m 254) m) n := by rw [gfMul_comm _ m, gfMul_gfPow_254 hm, one_gfMul]
      _ = 0 := by rw [gfMul_assoc, h, gfMul_zero]
  · rintro (rfl | rfl)
    · rw [gfMul_comm, gfMul_zero]
    · exact gfMul_zero m

/-- Settles O9: the remainder from both operands' single bits, the ring laws by doubling, inverses from the 255th power.
-/
theorem gfMulIsTheFieldProduct : Obligations.GfMulIsTheFieldProduct := by
  unfold Obligations.GfMulIsTheFieldProduct
  exact ⟨hasRemainder_gfMul, gfMul_comm, gfMul_assoc, fun m hm => ⟨gfPow m 254, gfMul_gfPow_254 hm⟩,
    fun m n => gfMul_eq_zero_iff⟩

/-! ### Sequences -/

/-- Entry `i` of a value's sequence is its bit `n - 1 - i` (R120). -/
theorem bitseq_getElem? {n : Nat} (v : BitVec n) {i : Nat} (hi : i < n) :
    (bitseq v)[i]? = some (v.getLsbD (n - 1 - i)) := by
  simp [bitseq, hi]

/-- A value is read back from its sequence (R120, R121). -/
theorem val_bitseq {n : Nat} (v : BitVec n) : val (bitseq v) = v.toNat := by
  refine Nat.eq_of_testBit_eq fun i => ?_
  rw [testBit_val, BitVec.testBit_toNat, List.getD_eq_getElem?_getD]
  by_cases hi : i < n
  · have hj : n - 1 - i < n := by omega
    have hback : n - 1 - (n - 1 - i) = i := by omega
    rw [List.getElem?_reverse (by rwa [bitseq_length]), bitseq_length, bitseq_getElem? v hj, hback, Option.getD_some]
  · simp [hi, BitVec.getLsbD_of_ge v i (by omega)]

/-- The fold of Horner's scheme from any accumulator (R121). -/
theorem foldl_val (b : Bits) (acc : Nat) :
    b.foldl (fun acc bit => 2 * acc + bit.toNat) acc = acc * 2 ^ b.length + val b := by
  induction b generalizing acc with
  | nil => simp [val]
  | cons x b ih =>
    have hval : val (x :: b) = (2 * 0 + x.toNat) * 2 ^ b.length + val b := ih _
    rw [List.foldl_cons, ih, hval, List.length_cons, Nat.pow_succ]
    ring

/-- A bit more at the front of a sequence weighs as much as the length says (R121). -/
theorem val_cons (x : Bool) (b : Bits) : val (x :: b) = x.toNat * 2 ^ b.length + val b := by
  rw [val, List.foldl_cons, foldl_val, Nat.mul_zero, Nat.zero_add]

/-- `val` is the weighted sum of its bits (R121). -/
theorem val_eq_sum (b : Bits) : val b = ∑ i : Fin b.length, (b[i]).toNat * 2 ^ (b.length - 1 - i) := by
  induction b with
  | nil => rfl
  | cons x b ih =>
    rw [val_cons, ih]
    refine ((Fin.sum_univ_succ _).trans ?_).symm
    simp [Nat.sub_sub, Nat.add_comm]

/-- Settles O5: each side is read back from the other, and the sum is Horner's scheme written out. -/
theorem bitSequencesAreMsbFirst : Obligations.BitSequencesAreMsbFirst := by
  unfold Obligations.BitSequencesAreMsbFirst
  exact ⟨fun n v => ⟨bitseq_length v, fun _ hi => bitseq_getElem? v hi, val_bitseq v⟩,
    fun b => ⟨val_eq_sum b, bitseq_val rfl⟩⟩

/-- Settles O6: an index in range is read, not defaulted. -/
theorem permuteReadsItsTableOneBased : Obligations.PermuteReadsItsTableOneBased := by
  unfold Obligations.PermuteReadsItsTableOneBased
  intro b table hrange
  refine ⟨permute_length b table, fun i hi => ?_⟩
  obtain ⟨hlow, hhigh⟩ := hrange _ (List.getElem_mem hi)
  have hlt : table[i] - 1 < b.length := by omega
  simp [permute, hi, hlt]

theorem rotl_eq_rotate {α : Type} {b : List α} {s : Nat} (h : s ≤ b.length) : rotl b s = b.rotate s :=
  (List.rotate_eq_drop_append_take h).symm

/-- Settles O7: below the length, `rotl` is the library's rotation. -/
theorem rotationMovesTowardIndexZero : Obligations.RotationMovesTowardIndexZero := by
  unfold Obligations.RotationMovesTowardIndexZero
  intro α b s i hs hi
  rw [rotl_eq_rotate hs.le, List.getElem?_rotate hi]

/-! ### The DES S-box layer -/

/-- Pieces of one length joined in order: entry `j` of piece `i` stands at `c * i + j`. -/
theorem getElem?_flatMap_of_length {α β : Type} {f : α → List β} {c j : Nat} (hf : ∀ a, (f a).length = c)
    (hj : j < c) (l : List α) (i : Nat) : (l.flatMap f)[c * i + j]? = l[i]?.bind fun a => (f a)[j]? := by
  induction l generalizing i with
  | nil => rfl
  | cons a l ih =>
    rw [List.flatMap_cons]
    cases i with
    | zero => rw [Nat.mul_zero, Nat.zero_add, List.getElem?_append_left (by rwa [hf])]; rfl
    | succ i =>
      have hskip : c * (i + 1) + j - c = c * i + j := by rw [Nat.mul_succ]; omega
      rw [List.getElem?_append_right (by rw [hf, Nat.mul_succ]; omega), hf, hskip, ih, List.getElem?_cons_succ]

theorem val_two_bits (a b : Bool) : val [a, b] = 2 * a.toNat + b.toNat := by simp [val]

theorem val_four_bits (a b c d : Bool) :
    val [a, b, c, d] = 8 * a.toNat + 4 * b.toNat + 2 * c.toNat + d.toNat := by
  simp only [val, List.foldl_cons, List.foldl_nil]
  omega

/-- Entry `n` of a slice is entry `start + n` of the sequence. -/
theorem slice_getD (b : Bits) (start : Nat) {len n : Nat} (hn : n < len) :
    (slice b start len).getD n false = b.getD (start + n) false := by
  simp [slice, hn]

/-- An S-box answers the four bits of the entry at the group's row and column, the most significant first (R128). -/
theorem sDes_getElem? (k : Nat) (g : Bits) {j : Nat} (hj : j < 4) :
    (sDes k g)[j]? = some ((sDesEntry k (val [g.getD 0 false, g.getD 5 false])
      (val [g.getD 1 false, g.getD 2 false, g.getD 3 false, g.getD 4 false])).testBit (3 - j)) := by
  have hbit : 4 - 1 - j < 4 := by omega
  rw [sDes, bitseq_getElem? _ hj, BitVec.getLsbD_ofNat, decide_eq_true hbit, Bool.true_and]

/-- Settles O15: entry `4i + j` is entry `j` of group `i`'s box, whose row and column are the numbers of its bits. -/
theorem sboxLayerLooksUpSixBitGroups : Obligations.SboxLayerLooksUpSixBitGroups := by
  unfold Obligations.SboxLayerLooksUpSixBitGroups
  intro x _
  refine ⟨sboxLayer_length x, fun i hi j hj => ?_⟩
  rw [sboxLayer, getElem?_flatMap_of_length (fun _ => sDes_length _ _) hj, List.getElem?_range hi, Option.bind_some,
    sDes_getElem? _ _ hj]
  have hgroup {n : Nat} (hn : n < 6) : (slice x (6 * i) 6).getD n false = x.getD (6 * i + n) false := slice_getD x _ hn
  simp only [hgroup, Nat.reduceLT, val_two_bits, val_four_bits]

end Sys2Proof.Machine
end

section
/-! PROOF. Family 42_constant_tables.md. The AES S-box with its affine map taken off is the inverse in GF(2^8), and so
injective; a permutation by a table of a permutation by a table is one permutation, by the composed table. -/

namespace Sys2Proof.Machine

/-! ### The AES S-box -/

/-- The affine map of the AES S-box (R140). -/
def affine (x : Byte) : Byte :=
  x ^^^ x.rotateLeft 1 ^^^ x.rotateLeft 2 ^^^ x.rotateLeft 3 ^^^ x.rotateLeft 4 ^^^ 0x63

/-- The map that undoes `affine`: its matrix has the rotations by 1, 3 and 6. -/
def unaffine (y : Byte) : Byte := y.rotateLeft 1 ^^^ y.rotateLeft 3 ^^^ y.rotateLeft 6 ^^^ 0x05

theorem affine_unaffine (y : Byte) : affine (unaffine y) = y := by
  revert y
  decide

/-- The field part of the AES S-box: its entry with the affine map taken off (R140). -/
def sAesField (b : Byte) : Byte := unaffine (sAes b)

theorem sAes_eq_affine (b : Byte) : sAes b = affine (sAesField b) := (affine_unaffine _).symm

theorem sAesField_zero : sAesField 0 = 0 := by decide

/-- The field part of a nonzero byte is its inverse in GF(2^8), checked on the table's entries (R140). -/
theorem gfMul_sAesField : ∀ b : Byte, b ≠ 0 → gfMul b (sAesField b) = 1 := by decide +kernel

theorem sAesField_eq_zero {b : Byte} (h : sAesField b = 0) : b = 0 := by
  by_contra hb
  have hone := gfMul_sAesField b hb
  rw [h, gfMul_zero] at hone
  exact absurd hone (by decide)

/-- An inverse has one inverse of its own. -/
theorem sAesField_injective : Function.Injective sAesField := by
  intro b c h
  by_cases hc : c = 0
  · subst hc
    exact sAesField_eq_zero (h.trans sAesField_zero)
  · have hb : b ≠ 0 := fun hb => hc (sAesField_eq_zero (by rw [← h, hb, sAesField_zero]))
    calc b = gfMul b (gfMul (sAesField c) c) := by rw [gfMul_comm _ c, gfMul_sAesField c hc, gfMul_one]
      _ = gfMul (gfMul b (sAesField b)) c := by rw [gfMul_assoc, h]
      _ = c := by rw [gfMul_sAesField b hb, one_gfMul]

/-- Settles O11: the inverse is what the lookup gives with its affine map taken off. -/
theorem aesSboxIsInverseThenAffine : Obligations.AesSboxIsInverseThenAffine := by
  unfold Obligations.AesSboxIsInverseThenAffine
  intro b
  refine ⟨sAesField b, ?_, gfMul_sAesField b, sAes_eq_affine b⟩
  rintro rfl
  exact sAesField_zero

/-- Settles O10: the lookup is injective, as it still is with its affine map taken off, and there are finitely many bytes.
-/
theorem aesSboxIsBijective : Obligations.AesSboxIsBijective := by
  unfold Obligations.AesSboxIsBijective
  have hinj : Function.Injective (unaffine ∘ sAes) := sAesField_injective
  exact hinj.of_comp.bijective_of_finite

/-! ### The round constants -/

/-- Settles O19: the ten entries, each next one the double of the one before. -/
theorem roundConstantsArePowersOfX : Obligations.RoundConstantsArePowersOfX := by
  unfold Obligations.RoundConstantsArePowersOfX
  refine ⟨rfl, rfl, ?_⟩
  decide

/-! ### The DES permutations -/

/-- Every position of the 64 is a source, each once (R161). -/
theorem ip_perm : Tables.ip.Perm (List.range' 1 64) := by decide

theorem ipinv_perm : Tables.ipinv.Perm (List.range' 1 64) := by decide

/-- The inverse of IP, then IP, back at each position (R148). -/
theorem ipinv_ip : Tables.ipinv.map (fun t => Tables.ip.getD (t - 1) 0) = List.range' 1 64 := by decide

theorem ip_ipinv : Tables.ip.map (fun t => Tables.ipinv.getD (t - 1) 0) = List.range' 1 64 := by decide

/-- A permutation of a permutation is the permutation by the composed table (R122). -/
theorem permute_permute (b : Bits) {table table' : List Nat} (h : ∀ t ∈ table', t - 1 < table.length) :
    permute (permute b table) table' = permute b (table'.map fun t => table.getD (t - 1) 0) := by
  rw [permute, permute, permute, List.map_map]
  refine List.map_congr_left fun t ht => ?_
  simp [h t ht]

/-- The table of all positions in order changes nothing (R122). -/
theorem permute_range' (b : Bits) : permute b (List.range' 1 b.length) = b := by
  refine List.ext_getElem (by simp) fun i hi hi' => ?_
  simp [permute, hi']

/-- A table that brings every position of another back to its place undoes its permutation. -/
theorem permute_permute_cancel {n : Nat} {b : Bits} {table table' : List Nat} (hb : b.length = n)
    (hlen : table.length = n) (hperm : table'.Perm (List.range' 1 n))
    (hback : table'.map (fun t => table.getD (t - 1) 0) = List.range' 1 n) :
    permute (permute b table) table' = b := by
  have hrange : ∀ t ∈ table', t - 1 < table.length := by
    intro t ht
    have hmem := List.mem_range'_1.mp (hperm.mem_iff.mp ht)
    omega
  rw [permute_permute b hrange, hback, ← hb, permute_range']

/-- Settles O14: each table brings the other's positions back. -/
theorem initialAndFinalPermutationsAreInverse : Obligations.InitialAndFinalPermutationsAreInverse := by
  unfold Obligations.InitialAndFinalPermutationsAreInverse
  intro x
  exact ⟨permute_permute_cancel (bitseq_length x) rfl ipinv_perm ipinv_ip,
    permute_permute_cancel (bitseq_length x) rfl ip_perm ip_ipinv⟩

/-- Settles O13: each table's property checked on the table. -/
theorem permutationTablesHaveTheirProperties : Obligations.PermutationTablesHaveTheirProperties := by
  unfold Obligations.PermutationTablesHaveTheirProperties
  have hpc1 : Tables.pc1.Nodup ∧ ∀ t ∈ Tables.pc1, 1 ≤ t ∧ t ≤ 64 := by decide
  have hpc2 : Tables.pc2.Nodup ∧ ∀ t ∈ Tables.pc2, 1 ≤ t ∧ t ≤ 56 := by decide
  have hback : ∀ i < 64, Tables.ip.getD (Tables.ipinv.getD i 0 - 1) 0 = i + 1 := by decide
  have hrange : ∀ t ∈ Tables.e, 1 ≤ t ∧ t ≤ 32 := by decide
  have hcount : ∀ t < 32, Tables.e.count (t + 1) = 1 ∨ Tables.e.count (t + 1) = 2 := by decide
  have htwice : ((List.range 32).filter fun t => Tables.e.count (t + 1) == 2).length = 16 := by decide
  have hp : Tables.p.Perm (List.range' 1 32) := by decide
  exact ⟨⟨rfl, hpc1⟩, ⟨rfl, hpc2⟩, ip_perm, ipinv_perm, hback, ⟨rfl, hrange, hcount, htwice⟩, hp⟩

/-! ### The DES S-boxes -/

theorem sDesEntry_row_perm : ∀ k < 8, ∀ row < 4,
    ((List.range 16).map fun col => sDesEntry (k + 1) row col).Perm (List.range 16) := by decide

/-- A table of four rows of sixteen, gone through flat: a value occurs as often as in the four rows together. -/
theorem length_filter_flat (f : Nat → Nat → Nat) (value : Nat) :
    ((List.range 64).filter fun i => f (i / 16) (i % 16) == value).length =
      ((List.range 4).map fun row => ((List.range 16).map (f row)).count value).sum := by
  have hflat : List.range 64 = (List.range 4).flatMap fun row => (List.range 16).map (16 * row + ·) := by decide
  have hrow (row : Nat) : (((List.range 16).map (16 * row + ·)).filter fun i => f (i / 16) (i % 16) == value).length =
      ((List.range 16).map (f row)).count value := by
    rw [← List.countP_eq_length_filter, List.countP_map, List.count, List.countP_map]
    refine List.countP_congr fun col hcol => ?_
    have hlt : col < 16 := List.mem_range.mp hcol
    have hdiv : (16 * row + col) / 16 = row := by omega
    have hmod : (16 * row + col) % 16 = col := by omega
    simp only [Function.comp_apply, hdiv, hmod]
  simp only [hflat, List.filter_flatMap, List.length_flatMap, hrow]

/-- Settles O12: the rows are checked on the tables; a value occurs once in each of a box's four rows. -/
theorem desSboxRowsArePermutations : Obligations.DesSboxRowsArePermutations := by
  unfold Obligations.DesSboxRowsArePermutations
  intro k hk
  refine ⟨sDesEntry_row_perm k hk, fun value hvalue => ?_⟩
  have hcount : ∀ row ∈ List.range 4, ((List.range 16).map (sDesEntry (k + 1) row)).count value = 1 := by
    intro row hrow
    rw [(sDesEntry_row_perm k hk row (List.mem_range.mp hrow)).count_eq value]
    exact List.count_eq_one_of_mem List.nodup_range (List.mem_range.mpr hvalue)
  rw [length_filter_flat, List.map_congr_left hcount]
  rfl

end Sys2Proof.Machine
end

section
/-! PROOF. Family 43_aes_engine.md. A schedule is extended at its end, so every word of it is made from words that are
already the final ones; the cipher's full rounds are one fold over the round numbers; the round transformations are read
byte by byte from the matrices they build, and packed words bit by bit. -/

namespace Sys2Proof.Machine

/-! ### The key expansion -/

/-- A word of a schedule is still that word in a longer one. -/
theorem wordAt_of_prefix {w w' : List AesWord} (h : w <+: w') {i : Nat} (hi : i < w.length) :
    wordAt w' i = wordAt w i := by
  rw [wordAt, wordAt, List.getD_eq_getElem _ _ hi, List.getD_eq_getElem _ _ (hi.trans_le h.length_le), h.getElem hi]

/-- Extending a schedule keeps the words it has (R173). -/
theorem prefix_extendSchedule (nk count : Nat) (w : List AesWord) : w <+: extendSchedule nk count w := by
  induction count generalizing w with
  | zero => exact List.prefix_rfl
  | succ n ih => exact (List.prefix_append w _).trans (ih _)

/-- Every word added to a schedule obeys R173's recurrence in the finished schedule. -/
theorem extendSchedule_recurrence {nk count : Nat} {w : List AesWord} (hnk : 0 < nk) (hw : nk ≤ w.length) {i : Nat}
    (hlo : w.length ≤ i) (hhi : i < w.length + count) :
    wordAt (extendSchedule nk count w) i = xorWord (wordAt (extendSchedule nk count w) (i - nk))
      (scheduleTemp nk i (wordAt (extendSchedule nk count w) (i - 1))) := by
  induction count generalizing w with
  | zero => omega
  | succ n ih =>
    rw [extendSchedule]
    generalize hnew : xorWord (wordAt w (w.length - nk)) (scheduleTemp nk w.length (wordAt w (w.length - 1))) = new
    have hlen : (w ++ [new]).length = w.length + 1 := by simp
    obtain hlt | rfl := Nat.lt_or_eq_of_le hlo
    · exact ih (by omega) (by omega) (by omega)
    · have hgrown : w ++ [new] <+: extendSchedule nk n (w ++ [new]) := prefix_extendSchedule _ _ _
      have hold : w <+: extendSchedule nk n (w ++ [new]) := (List.prefix_append w _).trans hgrown
      have hlast : wordAt (w ++ [new]) w.length = new := by simp [wordAt]
      rw [wordAt_of_prefix hgrown (by omega), hlast, wordAt_of_prefix hold (i := w.length - nk) (by omega),
        wordAt_of_prefix hold (i := w.length - 1) (by omega), hnew]

/-- Settles O18: the schedule is the key extended, and every word added obeys the recurrence. -/
theorem keyExpansionFollowsItsRecurrence : Obligations.KeyExpansionFollowsItsRecurrence := by
  unfold Obligations.KeyExpansionFollowsItsRecurrence
  intro key nk nr hnk hnr hkey w
  have hrange : 0 < nk ∧ nk ≤ 4 * (nr + 1) := by
    simp only [List.mem_cons, List.not_mem_nil, or_false] at hnk
    omega
  obtain ⟨hpos, hle⟩ := hrange
  have hprefix : key <+: w := prefix_extendSchedule _ _ _
  refine ⟨keyExpansion_length key nk nr hkey hle, ?_, fun i hlo hhi => ?_⟩
  · rw [← hkey]
    exact (List.prefix_iff_eq_take.mp hprefix).symm
  · exact extendSchedule_recurrence hpos hkey.ge (hkey.le.trans hlo) (by omega)

/-! ### The cipher -/

/-- The state after round key 0 and the full rounds `1..n` (R179, steps 1 and 2). -/
def afterRounds (s : AesState) (w : List AesWord) (n : Nat) : AesState :=
  (List.range' 1 n).foldl (fullRound w) (addRoundKey s w 0)

/-- Each full round takes the state the rounds before it left (R179). -/
theorem afterRounds_succ (s : AesState) (w : List AesWord) (n : Nat) :
    afterRounds s w (n + 1) = fullRound w (afterRounds s w n) (n + 1) := by
  rw [afterRounds, List.range'_1_concat, List.foldl_concat, Nat.add_comm 1 n, afterRounds]

/-- The final round takes what the `nr - 1` full rounds left, and has no MixColumns (R179, step 3). -/
theorem cipher_eq_afterRounds (s : AesState) (nr : Nat) (w : List AesWord) :
    cipher s nr w = addRoundKey (shiftRows (subBytes (afterRounds s w (nr - 1)))) w nr := rfl

/-- Settles O20: the states are those after each number of full rounds. -/
theorem cipherRunsItsRounds : Obligations.CipherRunsItsRounds := by
  unfold Obligations.CipherRunsItsRounds
  intro s nr w _
  refine ⟨afterRounds s w, rfl, fun round hlo _ => ?_, cipher_eq_afterRounds s nr w⟩
  obtain ⟨n, rfl⟩ := Nat.exists_eq_add_of_le' hlo
  exact afterRounds_succ s w n

/-! ### The round transformations -/

/-- A matrix holds at each row and column the byte it was built with (R12). -/
theorem AesState.of_getElem (f : Fin 4 → Fin 4 → Byte) (r c : Fin 4) : (AesState.of f)[r][c] = f r c := by
  simp [AesState.of]

/-- Byte `r` of the MixColumns map, its operands read from the state the map was given (R177). -/
theorem mixColumns_getElem (s : AesState) (r c : Fin 4) :
    (mixColumns s)[r][c] =
      gfMul (Tables.mixRow r)[0] s[0][c] ^^^ gfMul (Tables.mixRow r)[1] s[1][c] ^^^
        gfMul (Tables.mixRow r)[2] s[2][c] ^^^ gfMul (Tables.mixRow r)[3] s[3][c] := by
  simp only [mixColumns, AesState.of_getElem, mixByte, AesState.column, Vector.getElem_ofFn]
  rfl

/-- Settles O16: each transformation builds its matrix byte by byte; MixColumns' rows are those of R143's matrix. -/
theorem roundTransformationsByRowAndColumn : Obligations.RoundTransformationsByRowAndColumn := by
  unfold Obligations.RoundTransformationsByRowAndColumn
  intro s w round r c
  exact ⟨AesState.of_getElem _ r c, AesState.of_getElem _ r c, mixColumns_getElem s 0 c, mixColumns_getElem s 1 c,
    mixColumns_getElem s 2 c, mixColumns_getElem s 3 c, AesState.of_getElem _ r c⟩

/-! ### Packed words -/

/-- A bit of the byte at `lo` is the register's bit at its place. -/
theorem getLsbD_byte (v : Word) {lo i : Nat} (hlo : lo ≤ i) (hhi : i < lo + 8) :
    (v.extractLsb' lo 8).getLsbD (i - lo) = v.getLsbD i := by
  have hin : i - lo < 8 := by omega
  rw [BitVec.getLsbD_extractLsb', Nat.add_sub_cancel' hlo, decide_eq_true hin, Bool.true_and]

/-- A register is put together again from its bytes (R130). -/
theorem pack_bytes (v : Word) : pack (bytes v) = v := by
  ext i hi
  rw [← BitVec.getLsbD_eq_getElem, ← BitVec.getLsbD_eq_getElem, pack_bit]
  split_ifs with h8 h16 h24
  · exact getLsbD_byte v (Nat.zero_le i) h8
  · exact getLsbD_byte v (not_lt.mp h8) h16
  · exact getLsbD_byte v (not_lt.mp h16) h24
  · exact getLsbD_byte v (not_lt.mp h24) hi

/-- In packed form the rotation moves every byte eight bits up, and byte 0 to the bottom (R171). -/
theorem pack_rotWord (w : AesWord) : pack (rotWord w) = (pack w <<< 8) ||| (pack w >>> 24) := by
  ext i hi
  rw [BitVec.getElem_or, BitVec.getElem_shiftLeft, BitVec.getElem_ushiftRight, ← BitVec.getLsbD_eq_getElem,
    pack_bit (rotWord w)]
  by_cases h8 : i < 8
  · have hbottom : (pack w).getLsbD (24 + i) = w[0].getLsbD i := by
      rw [pack_bit, if_neg (by omega), if_neg (by omega), if_neg (by omega), Nat.add_sub_cancel_left]
    simp [h8, hbottom, rotWord]
  · have hbeyond : (pack w).getLsbD (24 + i) = false := BitVec.getLsbD_of_ge _ _ (by omega)
    have h16 : i - 8 < 8 ↔ i < 16 := by omega
    have h24 : i - 8 < 16 ↔ i < 24 := by omega
    have h32 : i - 8 < 24 := by omega
    simp [h8, hbeyond, ← BitVec.getLsbD_eq_getElem, pack_bit, h16, h24, h32, Nat.sub_sub, rotWord]

/-- Settles O17: both round trips and the rotation, by their own lemmas. -/
theorem wordsPackMostSignificantFirst : Obligations.WordsPackMostSignificantFirst := by
  unfold Obligations.WordsPackMostSignificantFirst
  exact ⟨fun v => ⟨pack_bytes v, rfl, rfl, rfl, rfl⟩, fun w => ⟨bytes_pack w, rfl, pack_rotWord w⟩⟩

end Sys2Proof.Machine
end

section
/-! PROOF. Family 44_des_engine.md. The key halves after `n` rounds are the first ones rotated by the sum of `n`
amounts; the rounds are undone by running them on the exchanged halves with the subkeys reversed; complementing key and
block leaves every input of the S-box layer as it is. -/

namespace Sys2Proof.Machine

/-! ### The halves of a sequence -/

theorem slice_zero (b : Bits) (n : Nat) : slice b 0 n = b.take n := rfl

/-- The last part of a sequence is what stands behind the parts before it. -/
theorem slice_eq_drop {b : Bits} {start len : Nat} (h : b.length = start + len) : slice b start len = b.drop start :=
  List.take_of_length_le (by rw [List.length_drop]; omega)

/-- The key schedule, from the two halves of PC-1's 56 bits (R211). -/
theorem desKeySchedule_eq (k : Bits) : desKeySchedule k =
    desSubkeys Tables.shifts ((permute k Tables.pc1).take 28) ((permute k Tables.pc1).drop 28) := by
  rw [desKeySchedule, slice_zero, slice_eq_drop (permute_length _ _)]

/-- The encryption, from the two halves of IP's 64 bits (R214). -/
theorem desEncrypt_eq (m : Bits) (ks : List Bits) : desEncrypt m ks =
    permute ((desRounds ks ((permute m Tables.ip).take 32) ((permute m Tables.ip).drop 32)).2 ++
      (desRounds ks ((permute m Tables.ip).take 32) ((permute m Tables.ip).drop 32)).1) Tables.ipinv := by
  rw [desEncrypt, slice_zero, slice_eq_drop (permute_length _ _)]

theorem pc1_halves_length (k : Bits) :
    ((permute k Tables.pc1).take 28).length = 28 ∧ ((permute k Tables.pc1).drop 28).length = 28 := by
  rw [List.length_take, List.length_drop, permute_length]
  exact ⟨rfl, rfl⟩

theorem ip_halves_length (m : Bits) :
    ((permute m Tables.ip).take 32).length = 32 ∧ ((permute m Tables.ip).drop 32).length = 32 := by
  rw [List.length_take, List.length_drop, permute_length]
  exact ⟨rfl, rfl⟩

/-! ### The key schedule -/

/-- A table reads the same output from two sequences that agree at its positions (R122). -/
theorem permute_congr {b b' : Bits} {table : List Nat} (h : ∀ t ∈ table, b[t - 1]? = b'[t - 1]?) :
    permute b table = permute b' table :=
  List.map_congr_left fun t ht => by rw [List.getD_eq_getElem?_getD, List.getD_eq_getElem?_getD, h t ht]

/-- A subkey is PC-2 of the halves rotated by the sum of the amounts up to its own (R211). -/
theorem desSubkeys_getElem? {amounts : List Nat} {c d : Bits} (hc : ∀ s ∈ amounts, s ≤ c.length)
    (hd : ∀ s ∈ amounts, s ≤ d.length) {n : Nat} (hn : n < amounts.length) :
    (desSubkeys amounts c d)[n]? = some (permute (c.rotate (amounts.take (n + 1)).sum ++
      d.rotate (amounts.take (n + 1)).sum) Tables.pc2) := by
  induction amounts generalizing c d n with
  | nil => cases hn
  | cons s rest ih =>
    obtain ⟨hcs, hc⟩ := List.forall_mem_cons.mp hc
    obtain ⟨hds, hd⟩ := List.forall_mem_cons.mp hd
    rw [desSubkeys, List.take_succ_cons, List.sum_cons, rotl_eq_rotate hcs, rotl_eq_rotate hds]
    cases n with
    | zero => simp
    | succ n =>
      rw [List.getElem?_cons_succ, ih (by simpa using hc) (by simpa using hd) (Nat.lt_of_succ_lt_succ hn),
        List.rotate_rotate, List.rotate_rotate]

/-- A rotation by an amount taken modulo the length is the rotation by the whole amount. -/
theorem rotl_mod {α : Type} {b : List α} {n : Nat} (hb : b.length = n) (hn : 0 < n) (s : Nat) :
    rotl b (s % n) = b.rotate s := by
  rw [rotl_eq_rotate (hb ▸ (Nat.mod_lt s hn).le), ← hb, List.rotate_mod]

/-- No round rotates a half by more than its 28 bits (R151). -/
theorem shifts_le : ∀ s ∈ Tables.shifts, s ≤ 28 := by decide

/-- Settles O21: the rotations of the rounds add up, and 28 of them are none. -/
theorem desSubkeysComeFromRotatedHalves : Obligations.DesSubkeysComeFromRotatedHalves := by
  unfold Obligations.DesSubkeysComeFromRotatedHalves
  intro k _ c0 d0
  obtain ⟨hc0, hd0⟩ : c0.length = 28 ∧ d0.length = 28 := pc1_halves_length k
  rw [desKeySchedule_eq]
  refine ⟨desSubkeys_length _ _ _, fun x hx => length_of_mem_desSubkeys hx, rfl, fun n hn => ?_⟩
  intro amount
  rw [desSubkeys_getElem? (hc0 ▸ shifts_le) (hd0 ▸ shifts_le) hn, rotl_mod hc0 (by decide),
    rotl_mod hd0 (by decide)]

/-- PC-1 reads none of the eight parity positions (R145, R212). -/
theorem pc1_skips_parity : ∀ t ∈ Tables.pc1, t - 1 < 64 ∧ (t - 1) % 8 ≠ 7 := by decide

/-- Settles O22: PC-1 reads no parity bit, and the rest of the schedule starts from PC-1. -/
theorem parityBitsDoNotAffectSubkeys : Obligations.ParityBitsDoNotAffectSubkeys := by
  unfold Obligations.ParityBitsDoNotAffectSubkeys
  intro k k' _ _ hagree
  have hpc1 : permute k Tables.pc1 = permute k' Tables.pc1 := permute_congr fun t ht =>
    let ⟨hlt, hparity⟩ := pc1_skips_parity t ht
    hagree _ hlt hparity
  rw [desKeySchedule, desKeySchedule, hpc1]

/-! ### The rounds -/

/-- The rounds with the subkeys of two lists are the second list's rounds after the first's (R214). -/
theorem desRounds_append (ks ks' : List Bits) (l r : Bits) :
    desRounds (ks ++ ks') l r = desRounds ks' (desRounds ks l r).1 (desRounds ks l r).2 := by
  induction ks generalizing l r with
  | nil => rfl
  | cons k ks ih => exact ih _ _

theorem desRounds_length (ks : List Bits) {l r : Bits} (hl : l.length = 32) (hr : r.length = 32) :
    (desRounds ks l r).1.length = 32 ∧ (desRounds ks l r).2.length = 32 := by
  induction ks generalizing l r with
  | nil => exact ⟨hl, hr⟩
  | cons k ks ih => exact ih hr (by simp [hl])

/-- The halves `(Ln, Rn)` of a block's encryption, after its first `n` rounds (R214). -/
def roundHalves (m : Bits) (ks : List Bits) (n : Nat) : Bits × Bits :=
  desRounds (ks.take n) ((permute m Tables.ip).take 32) ((permute m Tables.ip).drop 32)

/-- Each round takes the halves the rounds before it left (R214). -/
theorem roundHalves_succ (m : Bits) {ks : List Bits} {n : Nat} (hn : n < ks.length) :
    roundHalves m ks (n + 1) = ((roundHalves m ks n).2,
      xorBits (roundHalves m ks n).1 (desF (roundHalves m ks n).2 (ks.getD n []))) := by
  rw [roundHalves, List.take_succ_eq_append_getElem hn, desRounds_append, List.getD_eq_getElem _ _ hn]
  rfl

/-- The ciphertext is made from the halves after the last round, exchanged (R214). -/
theorem desEncrypt_eq_roundHalves (m : Bits) (ks : List Bits) : desEncrypt m ks =
    permute ((roundHalves m ks ks.length).2 ++ (roundHalves m ks ks.length).1) Tables.ipinv := by
  rw [desEncrypt_eq, roundHalves, List.take_length]

/-- Settles O23: the halves are those after each number of rounds. -/
theorem desEncryptRunsItsRounds : Obligations.DesEncryptRunsItsRounds := by
  unfold Obligations.DesEncryptRunsItsRounds
  intro m ks _ hks _
  refine ⟨fun n => (roundHalves m ks n).1, fun n => (roundHalves m ks n).2, rfl, rfl, fun n hn => ?_, ?_⟩
  · exact Prod.mk.inj (roundHalves_succ m (hks ▸ hn))
  · rw [desEncrypt_eq_roundHalves, hks]

/-! ### The complementation property -/

/-- A table reads complemented bits from a complemented sequence, where it reads no position beyond the end (R122). -/
theorem permute_map_not {b : Bits} {table : List Nat} (h : ∀ t ∈ table, t - 1 < b.length) :
    permute (b.map not) table = (permute b table).map not := by
  rw [permute, permute, List.map_map]
  refine List.map_congr_left fun t ht => ?_
  simp [h t ht]

theorem rotl_map {α β : Type} (f : α → β) (b : List α) (s : Nat) : rotl (b.map f) s = (rotl b s).map f := by
  simp [rotl]

/-- Complementing one operand of an exclusive or complements the result (R124). -/
theorem xorBits_map_not_left (a b : Bits) : xorBits (a.map not) b = (xorBits a b).map not := by
  simp [xorBits, List.zipWith_map_left, List.map_zipWith]

/-- Complementing both operands of an exclusive or leaves the result as it is (R124). -/
theorem xorBits_map_not_map_not (a b : Bits) : xorBits (a.map not) (b.map not) = xorBits a b := by
  simp [xorBits, List.zipWith_map]

/-- Complementing the halves of the key complements every subkey (R211). -/
theorem desSubkeys_map_not (amounts : List Nat) {c d : Bits} (hc : c.length = 28) (hd : d.length = 28) :
    desSubkeys amounts (c.map not) (d.map not) = (desSubkeys amounts c d).map (List.map not) := by
  induction amounts generalizing c d with
  | nil => rfl
  | cons s rest ih =>
    have hrange : ∀ t ∈ Tables.pc2, t - 1 < (rotl c s ++ rotl d s).length := by
      rw [List.length_append, rotl_length, rotl_length, hc, hd]
      decide
    rw [desSubkeys, rotl_map, rotl_map, ih (by simpa) (by simpa), ← List.map_append, permute_map_not hrange]
    rfl

/-- Complementing a key complements every subkey (R211). -/
theorem desKeySchedule_map_not {k : Bits} (hk : k.length = 64) :
    desKeySchedule (k.map not) = (desKeySchedule k).map (List.map not) := by
  have hrange : ∀ t ∈ Tables.pc1, t - 1 < k.length := hk ▸ fun t ht => (pc1_skips_parity t ht).1
  obtain ⟨hc, hd⟩ := pc1_halves_length k
  rw [desKeySchedule_eq, permute_map_not hrange, ← List.map_take, ← List.map_drop, desSubkeys_map_not _ hc hd,
    desKeySchedule_eq]

/-- Complementing a half and its subkey leaves the round function as it is: the complements meet before the S-boxes
(R213). -/
theorem desF_map_not {r : Bits} (hr : r.length = 32) (k : Bits) : desF (r.map not) (k.map not) = desF r k := by
  have hrange : ∀ t ∈ Tables.e, t - 1 < r.length := hr ▸ by decide
  rw [desF, permute_map_not hrange, xorBits_map_not_map_not, desF]

/-- Complementing the halves and every subkey complements the halves after the rounds (R214). -/
theorem desRounds_map_not (ks : List Bits) {l r : Bits} (hl : l.length = 32) (hr : r.length = 32) :
    desRounds (ks.map (List.map not)) (l.map not) (r.map not) =
      ((desRounds ks l r).1.map not, (desRounds ks l r).2.map not) := by
  induction ks generalizing l r with
  | nil => rfl
  | cons k ks ih =>
    rw [List.map_cons, desRounds, desF_map_not hr, xorBits_map_not_left]
    exact ih hr (by simp [hl])

/-- Settles O24: the complement passes IP, goes through the rounds with the complemented subkeys, and passes the
inverse of IP. -/
theorem desComplementationHolds : Obligations.DesComplementationHolds := by
  unfold Obligations.DesComplementationHolds
  intro k m hk hm
  obtain ⟨hl, hr⟩ := ip_halves_length m
  obtain ⟨hl16, hr16⟩ := desRounds_length (desKeySchedule k) hl hr
  have hip : ∀ t ∈ Tables.ip, t - 1 < m.length := hm ▸ by decide
  rw [desKeySchedule_map_not hk, desEncrypt_eq, permute_map_not hip, ← List.map_take, ← List.map_drop,
    desRounds_map_not _ hl hr, ← List.map_append, permute_map_not, desEncrypt_eq]
  rw [List.length_append, hl16, hr16]
  decide

/-! ### Decryption by the reversed subkeys -/

/-- An exclusive or with the same sequence twice changes nothing (R124). -/
theorem xorBits_cancel_right {a b : Bits} (h : a.length = b.length) : xorBits (xorBits a b) b = a := by
  refine List.ext_getElem (by simp [h]) fun i hi hi' => ?_
  simp [xorBits]

/-- The rounds are undone on the exchanged halves by the reversed subkeys: each round's right half is kept, and the same
`F` of it is taken off the other one (R214). -/
theorem desRounds_reverse (ks : List Bits) {l r : Bits} (hl : l.length = 32) (hr : r.length = 32) :
    desRounds ks.reverse (desRounds ks l r).2 (desRounds ks l r).1 = (r, l) := by
  induction ks generalizing l r with
  | nil => rfl
  | cons k ks ih =>
    rw [desRounds, List.reverse_cons, desRounds_append, ih hr (by simp [hl])]
    exact congrArg (Prod.mk r) (xorBits_cancel_right (by rw [hl, desF_length]))

theorem permute_ip_ipinv {b : Bits} (hb : b.length = 64) : permute (permute b Tables.ip) Tables.ipinv = b :=
  permute_permute_cancel hb rfl ipinv_perm ipinv_ip

theorem permute_ipinv_ip {b : Bits} (hb : b.length = 64) : permute (permute b Tables.ipinv) Tables.ip = b :=
  permute_permute_cancel hb rfl ip_perm ip_ipinv

/-- Encrypting the ciphertext under the reversed subkeys gives back the block (R214). -/
theorem desEncrypt_reverse {m : Bits} (hm : m.length = 64) (ks : List Bits) :
    desEncrypt (desEncrypt m ks) ks.reverse = m := by
  obtain ⟨hl, hr⟩ := ip_halves_length m
  obtain ⟨hl16, hr16⟩ := desRounds_length ks hl hr
  rw [desEncrypt_eq _ ks.reverse, desEncrypt_eq m ks, permute_ipinv_ip (by rw [List.length_append, hl16, hr16]),
    List.take_left' hr16, List.drop_left' hr16, desRounds_reverse ks hl hr, List.take_append_drop, permute_ip_ipinv hm]

/-- The weak key's subkeys are all zeros: it sets parity bits only (R216). -/
theorem desKeySchedule_weakKey :
    desKeySchedule (bitseq (0x0101010101010101 : BitVec 64)) = .replicate 16 (.replicate 48 false) := by decide

/-- Settles O25: sixteen equal subkeys are their own reversal; the weak key's schedule is evaluated. -/
theorem weakKeyEncryptionIsAnInvolution : Obligations.WeakKeyEncryptionIsAnInvolution := by
  unfold Obligations.WeakKeyEncryptionIsAnInvolution
  refine ⟨fun m subkey hm => ?_, desKeySchedule_weakKey⟩
  have h := desEncrypt_reverse hm (.replicate 16 subkey)
  rwa [List.reverse_replicate] at h

end Sys2Proof.Machine
end

section
/-! PROOF. Family 60_exceptions.md. BUSY is the first check of a submission, so on a busy core no other one decides; its
rejection is the one that keeps DONE. -/

namespace Sys2Proof.Machine

/-- The rejection with BUSY sets ERR and ERRCODE and keeps all else, DONE included (R272). -/
theorem reject_busy_eq (s : State) : reject .busy s = { s with err := true, errcode := 5 } := rfl

/-- Settles O29: the write is a submission, and BUSY is its first check. -/
theorem ctrlWriteWhileBusyIsRejected : Obligations.CtrlWriteWhileBusyIsRejected := by
  unfold Obligations.CtrlWriteWhileBusyIsRejected
  intro s v rest hb
  rw [step_ctrl_write, submit_busy (s := { s with events := rest }) hb, reject_busy_eq]

end Sys2Proof.Machine
end

section
/-! PROOF. Family 70_reset_and_hazards.md. A scheduled reset is `resetCore`, whose core is R41's table whatever the core
was before. -/

namespace Sys2Proof.Machine

/-- A step with a reset as its next turn never stops: it is that reset of the core (R300). -/
theorem step_reset (s : State) (rest : List Event) :
    step { s with events := .reset :: rest } = .next (resetCore { s with events := rest }) := by
  rw [step_cons, turn]

/-- Every flag is 0 after reset and AES_KSIZE too, so STATUS reads 0 (R25, R41). -/
theorem statusWord_arch_reset : statusWord Arch.reset = 0x00000000 := by decide

/-- Settles O53: the step is `resetCore`, whose core is `Arch.reset`; every field is read off R41's table. -/
theorem resetSetsEveryRegister : Obligations.ResetSetsEveryRegister := by
  unfold Obligations.ResetSetsEveryRegister
  intro s rest
  refine ⟨_, step_reset s rest, ?_⟩
  rw [resetCore_toArch]
  exact ⟨rfl, rfl, rfl, rfl, rfl, rfl, rfl, rfl, rfl, rfl, rfl, rfl, rfl, rfl, statusWord_arch_reset⟩

end Sys2Proof.Machine
end
